-- ==== Sys2Proof/Word.lean ====
section
/-! DEFINITION. The word types of SRTS-DEC and nothing else: 00_scope.md R9, R10. -/

namespace Sys2Proof

/-- A payload byte register `P[i]` (10_state.md R21). -/
abbrev Byte := BitVec 8

/-- A nibble: control code, checksum nibble, argument of HEXUP (30_encoding.md R98). -/
abbrev Nibble := BitVec 4

/-- The 56-bit shift register `SR` (10_state.md R21). -/
abbrev Payload := BitVec 56

/-- A bit string in row order: the head is index 0, the earliest bit; `true` is the high level (00_scope.md R10). -/
abbrev Bits := List Bool

end Sys2Proof
end

