-- ==== Sys2Proof/Config.lean ====
section
/-! DEFINITION. The constants of 00_scope.md R4, the parameters of R5 and the free values of the spec.
A constant without a body is a parameter or a free value: no proof can see what it is, so what is proved
holds whatever it is (logs 3, 4, 21, 22). -/

namespace Sys2Proof.Config

/-- `TH_RETX` (R4): a row longer than this is tried as a retransmission. -/
def thRetx : Nat := 170

/-- `TH_FIRST` (R4): a row longer than this, and not longer than `thRetx`, is tried as a first frame. -/
def thFirst : Nat := 130

/-- `DS_FIRST` (R4). -/
def dsFirst : Nat := 25

/-- `DS_RETX` (R4). -/
def dsRetx : Nat := 65

/-- `PL_FIRST` (R4). -/
def plFirst : Nat := 24

/-- `PL_RETX` (R4). -/
def plRetx : Nat := 64

/-- `PAT_FIRST` (R4), as bytes. -/
def patFirst : List Byte := [0xF0#8, 0xF0#8, 0xFF#8]

/-- `PAT_RETX` (R4), as bytes. -/
def patRetx : List Byte := [0xF0#8, 0xF0#8, 0xF0#8, 0xF0#8, 0xF0#8, 0xF0#8, 0xF0#8, 0xFF#8]

/-- `NSYM` (R4): the number of Manchester symbols of a payload. -/
def nSym : Nat := 56

/-- `NBYTE` (R4). -/
def nByte : Nat := 7

/-- `DEMOD_SHORT` (R4): nominal value, exported only (log 22). -/
def demodShort : Nat := 604

/-- `DEMOD_LONG` (R4). -/
def demodLong : Nat := 604

/-- `DEMOD_TOL` (R4), percent. -/
def demodTol : Nat := 20

/-- `DEMOD_GAP` (R4). -/
def demodGap : Nat := 3000

/-- `DEMOD_RESET` (R4). -/
def demodReset : Nat := 10000

/-- By how much `MAX_ROWS` exceeds its least value (R5 `MAX_ROWS >= 1`): open, no body (log 3). -/
opaque maxRowsAboveLeast : Nat

/-- `MAX_ROWS` (R5). -/
def maxRows : Nat := maxRowsAboveLeast + 1

/-- By how much `MAX_ROW_BITS` exceeds its least value (R5 `MAX_ROW_BITS >= 177`): open, no body (log 3). -/
opaque maxRowBitsAboveLeast : Nat

/-- `MAX_ROW_BITS` (R5). -/
def maxRowBits : Nat := maxRowBitsAboveLeast + 177

/-- `ROWW` (R5): the width of `row_idx` and `num_rows`. -/
def rowW : Nat := Nat.clog 2 (maxRows + 1)

/-- `LENW` (R5): the width of a row length and of `bit_pos`. -/
def lenW : Nat := max 8 (Nat.clog 2 (maxRowBits + 1))

/-- `TIME_UNIT` (R5, 93 U10): the name of the unit of the `DEMOD_*` constants; open, no body (log 22). -/
opaque timeUnit : String

/-- Free value: the bits a row's storage holds when no LOADROW has written it since reset, for each reset and
each row (10_state.md R41, 70_reset_and_hazards.md R260 "become unspecified"; log 4). -/
opaque unspecifiedRow : (resets row : Nat) → Bits

/-- `CTRL_LABEL` of codes 3, 5 and 6, a "combination" label each; the strings are open (45_slicer.md R194; log 21). -/
opaque combinationLabel : Nibble → String

/-- What stands before the "?" in the label of an unknown or reserved code (R194; log 21). -/
opaque unknownLabelBefore : Nibble → String

/-- What stands after the "?" in the label of an unknown or reserved code (R194; log 21). -/
opaque unknownLabelAfter : Nibble → String

end Sys2Proof.Config
end

