-- ==== Sys2Proof/Syntax.lean ====
section
/-! DEFINITION. The stages of the sequencer and the ONE inductive of instructions, one constructor for each row
of spec/opcode_table.json (30_encoding.md R90 to R103). -/

namespace Sys2Proof

/-- The eight values of the `stage` register; all codes are used (30_encoding.md R100). -/
inductive Stage where
  | idle | classify | locate | manch | descr | fold | slice | done
  deriving DecidableEq, Repr

/-- The operations, formats and codes of the block, in the order of the opcode table.
What running a row that is no operation of a step means is said at its meaning and in logs 10 to 17. -/
inductive Instr where
  -- STAGE: the operations a step dispatches to by the stage code
  | idleWait
  | classify
  | locate
  | manch
  | descr
  | fold
  | slice
  | doneHold
  -- HOSTIN: the input pair (rst, start); `x` is RESET's don't-care bit
  | reset (x : Bool)
  | start
  -- HOSTWR: the row-buffer write port; LOADROW's `len` is the length of `bits`
  | loadrow (r : Nat) (bits : Bits)
  | setnrows (n : Nat)
  -- PRIMITIVE; SEARCH's `pattern_bit_length` is the length of `pat`
  | msym
  | search (r startBit : Nat) (pat : Bits)
  | hexup (n : Nibble)
  -- COMPOSITE: the run, at a stage code 001 to 110
  | decode (s : Stage)
  -- TESTAID
  | scramble (pt : Payload)
  | manchEncode (d : Bits)
  -- ROW: the unexamined bit, the 112 half-bits (first one most significant), the trailing bits
  | frameFirst (x : Bool) (m : BitVec 112) (t : Bits)
  | frameRetx (x : Bool) (m : BitVec 112) (t : Bits)
  -- MSYMBOL
  | sym1
  | sym0
  | symInvalidLow
  | symInvalidHigh
  -- PAYLOAD56
  | payload (seed : Byte) (control checksum : Nibble) (counter : BitVec 16) (address : BitVec 24)
  -- STATUS
  | statusNone
  | statusSuccess
  | statusSanityFailure
  | statusIntegrityFailure
  -- CAUSE
  | noRowInBand
  | preambleNotAt0
  | shortManchester
  | checksumNonzero
  -- CONTROL
  | ctrl0
  | ctrl1
  | ctrl2
  | ctrl3
  | ctrl4
  | ctrl5
  | ctrl6
  | ctrl7
  | ctrl8
  | ctrl9
  | ctrl10
  | ctrl11
  | ctrl12
  | ctrl13
  | ctrl14
  | ctrl15
  deriving DecidableEq, Repr

end Sys2Proof
end

