-- ==== Sys2Proof/WellFormed.lean ====
section
/-! DEFINITION. Which instructions fit their operand fields: the widths ROWW and LENW of 00_scope.md R5, the
stage codes DECODE runs through, and the lengths a frame may have (30_encoding.md R90). -/

namespace Sys2Proof

/-- The stage codes 001 to 110 that DECODE takes (spec/opcode_table.json, row DECODE). -/
def Stage.runs : Stage → Bool
  | .idle => false
  | .classify => true
  | .locate => true
  | .manch => true
  | .descr => true
  | .fold => true
  | .slice => true
  | .done => false

/-- The most trailing bits a row in the first-frame band can have after the 137 bits of the frame (R90). -/
def maxTrailFirst : Nat := 33

/-- Every operand fits its field. A row index or count above MAX_ROWS but inside its field is well formed: the
command is then ignored, not malformed (20_memory.md R66, R67). LOADROW's fields, ROWW and LENW bits, are those of
spec/opcode_table.json. The spec gives no field to SETNROWS's `n` (the table says its range), nor to SEARCH's operands (it
only says `L >= 1`, 41_locator.md R140): that `n` and SEARCH's row index are ROWW-bit fields and SEARCH's `start` and
pattern length LENW-bit fields is the model's choice (DESIGN CHOICE, log 30). -/
def Instr.wellFormed : Instr → Bool
  | .loadrow r bits => decide (r < 2 ^ Config.rowW) && decide (bits.length < 2 ^ Config.lenW)
  | .setnrows n => decide (n < 2 ^ Config.rowW)
  | .search r startBit pat => decide (r < 2 ^ Config.rowW) && decide (startBit < 2 ^ Config.lenW) &&
      decide (1 ≤ pat.length) && decide (pat.length < 2 ^ Config.lenW)
  | .decode s => s.runs
  | .frameFirst _ _ t => decide (t.length ≤ maxTrailFirst)
  | .frameRetx _ _ t => decide (177 + t.length ≤ Config.maxRowBits)
  | .idleWait | .classify | .locate | .manch | .descr | .fold | .slice | .doneHold
  | .reset _ | .start | .msym | .hexup _ | .scramble _ | .manchEncode _
  | .sym1 | .sym0 | .symInvalidLow | .symInvalidHigh | .payload _ _ _ _ _
  | .statusNone | .statusSuccess | .statusSanityFailure | .statusIntegrityFailure
  | .noRowInBand | .preambleNotAt0 | .shortManchester | .checksumNonzero
  | .ctrl0 | .ctrl1 | .ctrl2 | .ctrl3 | .ctrl4 | .ctrl5 | .ctrl6 | .ctrl7
  | .ctrl8 | .ctrl9 | .ctrl10 | .ctrl11 | .ctrl12 | .ctrl13 | .ctrl14 | .ctrl15 => true

end Sys2Proof
end

