-- ==== Sys2Proof/Decode.lean ====
section
/-! DEFINITION. The decoder and the encoder of the code words of spec/opcode_table.json, and the bit-string and
byte-order helpers of 00_scope.md R10, R11.

The block has no instruction words (R6): a code is read from a place that already says which code space it
belongs to (the stage register, the two input wires, two row bits, the control field ...), and the same bits mean
different rows in different spaces. A code word is therefore a format of the table, the bits of the table's
`encoding` column (leftmost first), and the operands a row without code bits carries (log 20). -/

namespace Sys2Proof

/-! ## Bit strings -/

/-- The `n` low bits of `w`, most significant first: the string a byte or a code stands for (00_scope.md R11). -/
def bitsMsb : (n w : Nat) → Bits
  | 0, _ => []
  | n + 1, w => w.testBit n :: bitsMsb n w

/-- The number a bit string stands for, first bit most significant. -/
def natMsb : Bits → Nat
  | [] => 0
  | b :: bs => b.toNat * 2 ^ bs.length + natMsb bs

/-- `Expand(b0, b1, ...)` of 00_scope.md R11: each byte's bits, most significant first, in order. -/
def expand : List Byte → Bits
  | [] => []
  | b :: bs => bitsMsb 8 b.toNat ++ expand bs

/-- The pattern `PAT_FIRST` or `PAT_RETX` as bits (10_state.md R37). -/
def patternBits (retx : Bool) : Bits :=
  expand (if retx then Config.patRetx else Config.patFirst)

/-! ## Code words -/

/-- The `format` column of spec/opcode_table.json. -/
inductive Format where
  | stage | hostIn | hostWr | primitive | composite | testAid | row | msymbol | payload56 | status | cause | control
  deriving DecidableEq, Repr

/-- The operands of a row that the table gives no code bits: the command on the row-buffer write port (20_memory.md
R66, R67), the arguments of a primitive or of a test aid, the trailing bits of a frame. -/
inductive Operands where
  | none
  | row (r len : Nat) (bits : Bits)
  | count (n : Nat)
  | pattern (row startBit : Nat) (pat : Bits) (patternBitLength : Nat)
  | nibble (n : Nibble)
  | plaintext (pt : Payload)
  | dataBits (d : Bits)
  | trailing (t : Bits)
  deriving DecidableEq, Repr

/-- A code word: the place it is read from, its bits leftmost first, and its operands. -/
structure CodeWord where
  format : Format
  code : Bits
  operands : Operands
  deriving DecidableEq, Repr

/-- Why a code word decodes to nothing. -/
inductive DecodeError where
  /-- No row of this format has these code bits (or this many of them). -/
  | noSuchCode (f : Format)
  /-- The operands are not those of a row of this format. -/
  | wrongOperands (f : Format)
  /-- The stated length is not the number of bits carried (70_reset_and_hazards.md R270). -/
  | lengthMismatch
  /-- An operand does not fit its field. -/
  | operandOutOfField
  deriving DecidableEq, Repr

/-! ## The stage codes and the input pair -/

/-- Stage codes, 30_encoding.md R100. -/
def Stage.code : Stage → BitVec 3
  | .idle => 0
  | .classify => 1
  | .locate => 2
  | .manch => 3
  | .descr => 4
  | .fold => 5
  | .slice => 6
  | .done => 7

/-- The stage three code bits name: all eight codes are used (R100). -/
def Stage.ofBits : (b2 b1 b0 : Bool) → Stage
  | false, false, false => .idle
  | false, false, true => .classify
  | false, true, false => .locate
  | false, true, true => .manch
  | true, false, false => .descr
  | true, false, true => .fold
  | true, true, false => .slice
  | true, true, true => .done

/-- The operation a stage code selects (46_sequencer.md R202; opcode table, format STAGE). -/
def stageInstr : Stage → Instr
  | .idle => .idleWait
  | .classify => .classify
  | .locate => .locate
  | .manch => .manch
  | .descr => .descr
  | .fold => .fold
  | .slice => .slice
  | .done => .doneHold

/-- The host command on the two input wires (opcode table, format HOSTIN): RESET is "1x", START is "01". -/
def hostInInstr (rst start : Bool) : Option Instr :=
  match rst, start with
  | true, x => some (.reset x)
  | false, true => some .start
  | false, false => none

/-! ## One decoder for each format -/

def decodeStage : Bits → Except DecodeError Instr
  | [b2, b1, b0] => .ok (stageInstr (Stage.ofBits b2 b1 b0))
  | _ => .error (.noSuchCode .stage)

def decodeHostIn : Bits → Except DecodeError Instr
  | [rst, start] =>
    match hostInInstr rst start with
    | some i => .ok i
    | none => .error (.noSuchCode .hostIn)
  | _ => .error (.noSuchCode .hostIn)

/-- The two commands of the write port have no code (30_encoding.md R103): the operands tell them apart. -/
def decodeHostWr : Bits → Operands → Except DecodeError Instr
  | [], .row r len bits => if bits.length = len then .ok (.loadrow r bits) else .error .lengthMismatch
  | [], .count n => .ok (.setnrows n)
  | [], _ => .error (.wrongOperands .hostWr)
  | _ :: _, _ => .error (.noSuchCode .hostWr)

/-- The primitives share the stage code of the stage they run in (R103). -/
def decodePrimitive : Bits → Operands → Except DecodeError Instr
  | [false, true, true], .none => .ok .msym
  | [false, true, false], .pattern r startBit pat len =>
    if pat.length = len then .ok (.search r startBit pat) else .error .lengthMismatch
  | [true, true, false], .nibble n => .ok (.hexup n)
  | [false, true, true], _ => .error (.wrongOperands .primitive)
  | [false, true, false], _ => .error (.wrongOperands .primitive)
  | [true, true, false], _ => .error (.wrongOperands .primitive)
  | _, _ => .error (.noSuchCode .primitive)

/-- DECODE's code "sss" is the stage code the run stands at, 001 to 110. -/
def decodeComposite : Bits → Except DecodeError Instr
  | [b2, b1, b0] =>
    if (Stage.ofBits b2 b1 b0).runs then .ok (.decode (Stage.ofBits b2 b1 b0)) else .error (.noSuchCode .composite)
  | _ => .error (.noSuchCode .composite)

def decodeTestAid : Bits → Operands → Except DecodeError Instr
  | [], .plaintext pt => .ok (.scramble pt)
  | [], .dataBits d => .ok (.manchEncode d)
  | [], _ => .error (.wrongOperands .testAid)
  | _ :: _, _ => .error (.noSuchCode .testAid)

/-- The frame formats of 30_encoding.md R90, R91: pattern, one unexamined bit, 56 pairs of half-bits. -/
def decodeRow (code t : Bits) : Except DecodeError Instr :=
  if code.length = 137 ∧ code.take 24 = patternBits false then
    .ok (.frameFirst (natMsb ((code.drop 24).take 1) == 1) (BitVec.ofNat 112 (natMsb (code.drop 25))) t)
  else if code.length = 177 ∧ code.take 64 = patternBits true then
    .ok (.frameRetx (natMsb ((code.drop 64).take 1) == 1) (BitVec.ofNat 112 (natMsb (code.drop 65))) t)
  else .error (.noSuchCode .row)

/-- 30_encoding.md R95, the pair `a b`. -/
def decodeMsymbol : Bits → Except DecodeError Instr
  | [false, true] => .ok .sym1
  | [true, false] => .ok .sym0
  | [false, false] => .ok .symInvalidLow
  | [true, true] => .ok .symInvalidHigh
  | _ => .error (.noSuchCode .msymbol)

/-- 30_encoding.md R97: seed, control, checksum nibble, counter, address, from the most significant bit down. -/
def decodePayload56 (code : Bits) : Except DecodeError Instr :=
  if code.length = 56 then
    .ok (.payload (BitVec.ofNat 8 (natMsb (code.take 8))) (BitVec.ofNat 4 (natMsb ((code.drop 8).take 4)))
      (BitVec.ofNat 4 (natMsb ((code.drop 12).take 4))) (BitVec.ofNat 16 (natMsb ((code.drop 16).take 16)))
      (BitVec.ofNat 24 (natMsb (code.drop 32))))
  else .error (.noSuchCode .payload56)

/-- 30_encoding.md R99. -/
def decodeStatus : Bits → Except DecodeError Instr
  | [false, false] => .ok .statusNone
  | [false, true] => .ok .statusSuccess
  | [true, false] => .ok .statusSanityFailure
  | [true, true] => .ok .statusIntegrityFailure
  | _ => .error (.noSuchCode .status)

/-- The pairs (status, fail_stage) of 60_exceptions.md R235 that name a cause. -/
def decodeCause : Bits → Except DecodeError Instr
  | [true, false, false, false, true] => .ok .noRowInBand
  | [true, false, false, true, false] => .ok .preambleNotAt0
  | [true, true, false, true, true] => .ok .shortManchester
  | [true, true, true, false, true] => .ok .checksumNonzero
  | _ => .error (.noSuchCode .cause)

/-- 30_encoding.md R101. -/
def decodeControl : Bits → Except DecodeError Instr
  | [false, false, false, false] => .ok .ctrl0
  | [false, false, false, true] => .ok .ctrl1
  | [false, false, true, false] => .ok .ctrl2
  | [false, false, true, true] => .ok .ctrl3
  | [false, true, false, false] => .ok .ctrl4
  | [false, true, false, true] => .ok .ctrl5
  | [false, true, true, false] => .ok .ctrl6
  | [false, true, true, true] => .ok .ctrl7
  | [true, false, false, false] => .ok .ctrl8
  | [true, false, false, true] => .ok .ctrl9
  | [true, false, true, false] => .ok .ctrl10
  | [true, false, true, true] => .ok .ctrl11
  | [true, true, false, false] => .ok .ctrl12
  | [true, true, false, true] => .ok .ctrl13
  | [true, true, true, false] => .ok .ctrl14
  | [true, true, true, true] => .ok .ctrl15
  | _ => .error (.noSuchCode .control)

/-- The instruction a code word names, before its operands are held against their fields. -/
def decodeCode (w : CodeWord) : Except DecodeError Instr :=
  match w.format, w.operands with
  | .stage, .none => decodeStage w.code
  | .hostIn, .none => decodeHostIn w.code
  | .hostWr, ops => decodeHostWr w.code ops
  | .primitive, ops => decodePrimitive w.code ops
  | .composite, .none => decodeComposite w.code
  | .testAid, ops => decodeTestAid w.code ops
  | .row, .trailing t => decodeRow w.code t
  | .msymbol, .none => decodeMsymbol w.code
  | .payload56, .none => decodePayload56 w.code
  | .status, .none => decodeStatus w.code
  | .cause, .none => decodeCause w.code
  | .control, .none => decodeControl w.code
  | f, _ => .error (.wrongOperands f)

/-- The decoder: total on every code word, what it refuses it refuses by name. -/
def decode (w : CodeWord) : Except DecodeError Instr :=
  match decodeCode w with
  | .ok i => if i.wellFormed then .ok i else .error .operandOutOfField
  | .error e => .error e

/-! ## The encoder -/

/-- A code word with code bits only. -/
def bare (f : Format) (code : Bits) : CodeWord := ⟨f, code, .none⟩

/-- The code word of an instruction, from the same columns of the opcode table. -/
def encode : Instr → CodeWord
  | .idleWait => bare .stage [false, false, false]
  | .classify => bare .stage [false, false, true]
  | .locate => bare .stage [false, true, false]
  | .manch => bare .stage [false, true, true]
  | .descr => bare .stage [true, false, false]
  | .fold => bare .stage [true, false, true]
  | .slice => bare .stage [true, true, false]
  | .doneHold => bare .stage [true, true, true]
  | .reset x => bare .hostIn [true, x]
  | .start => bare .hostIn [false, true]
  | .loadrow r bits => ⟨.hostWr, [], .row r bits.length bits⟩
  | .setnrows n => ⟨.hostWr, [], .count n⟩
  | .msym => bare .primitive [false, true, true]
  | .search r startBit pat => ⟨.primitive, [false, true, false], .pattern r startBit pat pat.length⟩
  | .hexup n => ⟨.primitive, [true, true, false], .nibble n⟩
  | .decode s => bare .composite (bitsMsb 3 s.code.toNat)
  | .scramble pt => ⟨.testAid, [], .plaintext pt⟩
  | .manchEncode d => ⟨.testAid, [], .dataBits d⟩
  | .frameFirst x m t => ⟨.row, patternBits false ++ x :: bitsMsb 112 m.toNat, .trailing t⟩
  | .frameRetx x m t => ⟨.row, patternBits true ++ x :: bitsMsb 112 m.toNat, .trailing t⟩
  | .sym1 => bare .msymbol [false, true]
  | .sym0 => bare .msymbol [true, false]
  | .symInvalidLow => bare .msymbol [false, false]
  | .symInvalidHigh => bare .msymbol [true, true]
  | .payload seed control checksum counter address =>
    bare .payload56 (bitsMsb 8 seed.toNat ++ (bitsMsb 4 control.toNat ++ (bitsMsb 4 checksum.toNat ++
      (bitsMsb 16 counter.toNat ++ bitsMsb 24 address.toNat))))
  | .statusNone => bare .status [false, false]
  | .statusSuccess => bare .status [false, true]
  | .statusSanityFailure => bare .status [true, false]
  | .statusIntegrityFailure => bare .status [true, true]
  | .noRowInBand => bare .cause [true, false, false, false, true]
  | .preambleNotAt0 => bare .cause [true, false, false, true, false]
  | .shortManchester => bare .cause [true, true, false, true, true]
  | .checksumNonzero => bare .cause [true, true, true, false, true]
  | .ctrl0 => bare .control [false, false, false, false]
  | .ctrl1 => bare .control [false, false, false, true]
  | .ctrl2 => bare .control [false, false, true, false]
  | .ctrl3 => bare .control [false, false, true, true]
  | .ctrl4 => bare .control [false, true, false, false]
  | .ctrl5 => bare .control [false, true, false, true]
  | .ctrl6 => bare .control [false, true, true, false]
  | .ctrl7 => bare .control [false, true, true, true]
  | .ctrl8 => bare .control [true, false, false, false]
  | .ctrl9 => bare .control [true, false, false, true]
  | .ctrl10 => bare .control [true, false, true, false]
  | .ctrl11 => bare .control [true, false, true, true]
  | .ctrl12 => bare .control [true, true, false, false]
  | .ctrl13 => bare .control [true, true, false, true]
  | .ctrl14 => bare .control [true, true, true, false]
  | .ctrl15 => bare .control [true, true, true, true]

/-! ## The host's reading of a number -/

/-- The code word the host's number `w` of `nbits` bits stands for (log 19). The number carries no format, so the
format is taken from the number of bits, and where several formats share it (a byte holds a 2-bit, 3-bit, 4-bit or
5-bit code) from the value: 0 to 7 a stage code, 8 to 15 a control code, 16 to 31 a cause. Trailing bits are none. -/
def tableWord (nbits w : Nat) : Option CodeWord :=
  if 177 ≤ nbits ∧ nbits ≤ 184 ∧ w < 2 ^ 177 then some ⟨.row, bitsMsb 177 w, .trailing []⟩
  else if 137 ≤ nbits ∧ nbits ≤ 144 ∧ w < 2 ^ 137 then some ⟨.row, bitsMsb 137 w, .trailing []⟩
  else if nbits = 56 ∧ w < 2 ^ 56 then some (bare .payload56 (bitsMsb 56 w))
  else if nbits = 2 ∧ w < 4 then some (bare .hostIn (bitsMsb 2 w))
  else if (nbits = 3 ∨ nbits = 8) ∧ w < 8 then some (bare .stage (bitsMsb 3 w))
  else if (nbits = 4 ∧ w < 16) ∨ (nbits = 8 ∧ 8 ≤ w ∧ w < 16) then some (bare .control (bitsMsb 4 w))
  else if (nbits = 5 ∧ w < 32) ∨ (nbits = 8 ∧ 16 ≤ w ∧ w < 32) then some (bare .cause (bitsMsb 5 w))
  else none

/-- The instruction the decoder reads from the host's number (log 19). -/
def decodeTableWord (nbits w : Nat) : Option Instr :=
  match tableWord nbits w with
  | some cw =>
    match decode cw with
    | .ok i => some i
    | .error _ => none
  | none => none

end Sys2Proof
end

