-- ==== Sys2Proof/Machine/State.lean ====
section
/-! DEFINITION. The state of one block instance (10_state.md R20), the reasons a step can stop, and the state
right after reset (R41). -/

namespace Sys2Proof.Machine

/-- The result register `status` (10_state.md R29, codes 30_encoding.md R99). -/
inductive Status where
  | none | success | sanityFailure | integrityFailure
  deriving DecidableEq, Repr

/-- The two typed failures (60_exceptions.md R230). -/
inductive Failure where
  | sanity | integrity
  deriving DecidableEq, Repr

/-- The four causes of a failure (60_exceptions.md R231 to R234). -/
inductive Cause where
  | noRowInBand | preambleNotAt0 | shortManchester | checksumNonzero
  deriving DecidableEq, Repr

/-- The code of a Manchester symbol (30_encoding.md R95). -/
inductive Symbol where
  | sym1 | sym0 | invalidLow | invalidHigh
  deriving DecidableEq, Repr

/-- The DecodedMessage (45_slicer.md R185, widths 10_state.md R34). -/
structure DecodedMessage where
  seed : Byte
  control : Nibble
  checksumNibble : Nibble
  counter : BitVec 16
  addressBytes : BitVec 24
  addressHex : BitVec 48
  addressId : BitVec 24
  isRetransmission : Bool
  deriving DecidableEq, Repr

/-- `Result` of 00_scope.md R8, with the cause `raise F(c)` names (R12). -/
inductive Result where
  | success (m : DecodedMessage)
  | sanityFailure (c : Cause)
  | integrityFailure (c : Cause)
  deriving DecidableEq, Repr

/-- The row buffer's loaded rows: (row index, the row's bits), indices strictly rising (20_memory.md R60; logs 4, 9).
`RowLen` is the length of the bits. The unit of the spec's memory is one bit, addressed by row and bit index, and
rows are written whole, so an entry is a row and not a byte (log 9). -/
abbrev Memory := List (Nat × Bits)

/-- A command on the row-buffer write port (10_state.md R35; 20_memory.md R66, R67). LOADROW's `len` is the length of
`bits`: a LOADROW always writes exactly `len` bits (70_reset_and_hazards.md R270). -/
inductive HostWrite where
  | loadRow (r : Nat) (bits : Bits)
  | setNRows (n : Nat)
  deriving DecidableEq, Repr

/-- What the host drives on the input ports in one step (10_state.md R35, 46_sequencer.md R201). -/
structure HostInput where
  rst : Bool
  start : Bool
  write : Option HostWrite
  deriving DecidableEq, Repr

/-- The MODEL's own: the value a row of the opcode table gives that writes no register of the block (log 10). -/
inductive Returned where
  | nothing
  | offset (o : Option Nat)
  | character (c : Byte)
  | bytes (v : Payload)
  | bits (b : Bits)
  | message (m : DecodedMessage)
  | control (code : Nibble) (label : String)
  deriving DecidableEq, Repr

/-- The complete state of one block instance. `stage` to `numRows` and `rows` are the spec's tuple (10_state.md R20);
`inputs`, `resets` and `returned` are the model's own (logs 1, 4, 10). -/
structure State where
  /-- Which operation the next step executes (R24). -/
  stage : Stage
  /-- The scan index, then the chosen row (R25). -/
  rowIdx : Nat
  /-- The flag of the chosen frame shape (R28). -/
  isRetx : Bool
  /-- The Manchester decoder's cursor (R26). -/
  bitPos : Nat
  /-- The number of symbols accepted (R27). -/
  symCnt : Nat
  /-- The payload registers P[0..6] as the shift register SR (R21). -/
  sr : Payload
  /-- The typed result (R29). -/
  status : Status
  /-- The stage code a failure was raised at (R30). -/
  failStage : BitVec 3
  /-- 1 exactly when `status` is SUCCESS (R31). -/
  msgValid : Bool
  /-- How many rows exist for the core (R60, R62). -/
  numRows : Nat
  /-- The rows loaded since reset (R60). -/
  rows : Memory
  /-- What the host drives, one entry for each step to come; none left means nothing is driven (log 1). -/
  inputs : List HostInput
  /-- How many resets there have been: the free contents of never-loaded rows depend on it (log 4). -/
  resets : Nat
  /-- The value the last primitive, test aid or code row gave (log 10). -/
  returned : Returned
  deriving DecidableEq, Repr

/-- Why the model stops. -/
inductive Fault where
  /-- A read of row `r` with `r >= MAX_ROWS`: no such row is in the row buffer's address space (20_memory.md R60, R61).
  Raised by CLASSIFY, LOCATE, MANCH, MSYM, SEARCH, and DECODE and the frames through them. Safe: no state that a run
  from reset reaches has such an index but as an operand of a SEARCH run by itself (log 5). -/
  | noSuchRow (r : Nat)
  deriving DecidableEq, Repr

/-- Why the model has no meaning to give. -/
inductive Refusal where
  /-- An instruction without a meaning, by its name in the opcode table. Raised by no arm. Safe. -/
  | notModelled (mnemonic : String)
  deriving DecidableEq, Repr

/-- The block right after reset, 10_state.md R41: every core register 0, `stage` IDLE, `status` NONE, `num_rows` 0, no
row loaded. The model's own fields start empty (log 6). -/
def State.reset : State where
  stage := .idle
  rowIdx := 0
  isRetx := false
  bitPos := 0
  symCnt := 0
  sr := 0
  status := .none
  failStage := 0
  msgValid := false
  numRows := 0
  rows := []
  inputs := []
  resets := 0
  returned := .nothing

end Sys2Proof.Machine
end

