-- ==== Sys2Proof/Machine/Flags.lean ====
section
/-! DEFINITION. The flags and the codes of the result registers: `busy`, `done`, the status code, the failure types and
causes with their codes, and the checksum fold that decides FOLD. -/

namespace Sys2Proof.Machine

/-- `busy` (10_state.md R32). -/
def State.busy (s : State) : Bool :=
  s.stage != .idle && s.stage != .done

/-- `done` (10_state.md R33). -/
def State.done (s : State) : Bool :=
  s.stage == .done

/-- Status codes (30_encoding.md R99). -/
def Status.code : Status → BitVec 2
  | .none => 0
  | .success => 1
  | .sanityFailure => 2
  | .integrityFailure => 3

/-- The status a failure leaves (60_exceptions.md R236). -/
def Failure.status : Failure → Status
  | .sanity => .sanityFailure
  | .integrity => .integrityFailure

/-- The type of each cause (60_exceptions.md R231 to R234). -/
def Cause.failure : Cause → Failure
  | .noRowInBand => .sanity
  | .preambleNotAt0 => .sanity
  | .shortManchester => .integrity
  | .checksumNonzero => .integrity

/-- The stage that raises each cause (60_exceptions.md R231 to R234). -/
def Cause.stage : Cause → Stage
  | .noRowInBand => .classify
  | .preambleNotAt0 => .locate
  | .shortManchester => .manch
  | .checksumNonzero => .fold

/-- The stages in which a failure of each type can be raised (60_exceptions.md R235). -/
def Failure.raisedIn : Failure → Stage → Bool
  | .sanity, .classify => true
  | .sanity, .locate => true
  | .integrity, .manch => true
  | .integrity, .fold => true
  | _, _ => false

/-- Payload byte register `P[i]`, `0 <= i <= 6`, as a view of SR (10_state.md R21); there is no `P[i]` beyond 6. -/
def payloadByte (v : Payload) (i : Nat) : Byte :=
  v.extractLsb' (8 * (6 - i)) 8

/-- `SR = {P[0], ..., P[6]}` (10_state.md R21). -/
def ofBytes (p0 p1 p2 p3 p4 p5 p6 : Byte) : Payload :=
  p0 ++ p1 ++ p2 ++ p3 ++ p4 ++ p5 ++ p6

/-- `P[i]` of a state. -/
def State.p (s : State) (i : Nat) : Byte :=
  payloadByte s.sr i

/-- The XOR of the seven payload bytes, `x` of 44_checksum.md R175. -/
def xorBytes (v : Payload) : Byte :=
  payloadByte v 0 ^^^ payloadByte v 1 ^^^ payloadByte v 2 ^^^ payloadByte v 3 ^^^ payloadByte v 4 ^^^
    payloadByte v 5 ^^^ payloadByte v 6

/-- `fold = (x & 0xF) ^ (x >> 4)`, four bits (44_checksum.md R175). -/
def foldNibble (v : Payload) : Nibble :=
  ((xorBytes v &&& 0x0F#8) ^^^ (xorBytes v >>> 4)).setWidth 4

end Sys2Proof.Machine
end

