-- ==== Sys2Proof/Machine/Operands.lean ====
section
/-! DEFINITION. What the operations read: rows and their bits (20_memory.md R60, R61, R68), the constants of the chosen
frame shape (10_state.md R37), Manchester symbols (30_encoding.md R95). -/

namespace Sys2Proof.Machine

/-! ## The row buffer -/

/-- The canonical form of the row buffer: row indices strictly rising, every index inside the buffer, every row at
most MAX_ROW_BITS long (20_memory.md R60). A loaded row stays listed whatever its bits: being loaded since reset is a
distinction the spec makes (R67), and an unlisted row reads as a free value (log 4). -/
def Memory.wf (m : Memory) : Bool :=
  decide ((m.map Prod.fst).Pairwise (· < ·)) &&
    m.all (fun e => decide (e.1 < Config.maxRows) && decide (e.2.length ≤ Config.maxRowBits))

/-- The loaded contents of row `r`, if it was loaded since reset. -/
def Memory.read : Memory → Nat → Option Bits
  | [], _ => none
  | (k, v) :: m, r => if k = r then some v else Memory.read m r

/-- Replace row `r` entirely, keeping the indices strictly rising (20_memory.md R66, R72). -/
def Memory.write : Memory → Nat → Bits → Memory
  | [], r, bits => [(r, bits)]
  | (k, v) :: m, r, bits =>
    if r < k then (r, bits) :: (k, v) :: m
    else if r = k then (r, bits) :: m
    else (k, v) :: Memory.write m r bits

/-- The bits of row `r` inside its length: what was loaded, or the free value of a row that was not loaded since
reset, which is at most MAX_ROW_BITS long (10_state.md R41, 93 U4; log 4). -/
def State.rowAt (s : State) (r : Nat) : Bits :=
  match Memory.read s.rows r with
  | some bits => bits
  | none => (Config.unspecifiedRow s.resets r).take Config.maxRowBits

/-- `RowLen(r)` (20_memory.md R61). -/
def State.rowLen (s : State) (r : Nat) : Nat :=
  (s.rowAt r).length

/-- `RowBit(r, i)`; there is no bit at or above `RowLen(r)` (20_memory.md R61, R68). -/
def State.rowBit (s : State) (r i : Nat) : Option Bool :=
  (s.rowAt r)[i]?

/-- `MemRead(r, i, n)`, defined only when `i + n <= RowLen(r)` (00_scope.md R10). -/
def State.memRead (s : State) (r i n : Nat) : Option Bits :=
  if i + n ≤ s.rowLen r then some (((s.rowAt r).drop i).take n) else none

/-- The row a core operation reads: none outside the address space `0 .. MAX_ROWS-1` (20_memory.md R60). A row with
`num_rows <= r < MAX_ROWS` does not exist for the core (R60, R67) and no rule says what it reads as; that it reads as
its storage is the model's choice (DESIGN CHOICE, log 29). -/
def State.readRow (s : State) (r : Nat) : Option Bits :=
  if r < Config.maxRows then some (s.rowAt r) else none

/-- The PulseRowSet the core sees: rows `0 .. num_rows-1`, in order (20_memory.md R60, R62). -/
def State.rowSet (s : State) : List Bits :=
  (List.range s.numRows).map s.rowAt

/-! ## The frame shape -/

/-- `data_start_bit` (10_state.md R37). -/
def dataStartBit (retx : Bool) : Nat :=
  if retx then Config.dsRetx else Config.dsFirst

/-- `preamble_bit_length` (10_state.md R37). -/
def preambleBitLength (retx : Bool) : Nat :=
  if retx then Config.plRetx else Config.plFirst

/-- The band of a row length: `some true` the retransmission shape, `some false` the first-frame shape, `none` no
format; the retransmission test is made first (40_classifier.md R130). -/
def bandOf (len : Nat) : Option Bool :=
  if Config.thRetx < len then some true
  else if Config.thFirst < len then some false
  else none

/-! ## Pattern search -/

/-- The pattern lies wholly inside the row at offset `o`, bit for bit (41_locator.md R140). -/
def matchesAt (row pat : Bits) (o : Nat) : Bool :=
  decide (o + pat.length ≤ row.length) && (row.drop o).take pat.length == pat

/-- The least matching offset among `count` offsets from `o` up. -/
def searchFrom (row pat : Bits) : (count o : Nat) → Option Nat
  | 0, _ => none
  | n + 1, o => if matchesAt row pat o then some o else searchFrom row pat n (o + 1)

/-- `Search(r, start, pat, L)` on the bits of row `r` (41_locator.md R140): offsets `start .. RowLen - L`; `none` is
NOT_FOUND. -/
def search (row : Bits) (startBit : Nat) (pat : Bits) : Option Nat :=
  searchFrom row pat (row.length + 1 - (startBit + pat.length)) startBit

/-! ## Manchester symbols -/

/-- The code of the pair `(a, b)` (30_encoding.md R95). -/
def Symbol.ofPair : (a b : Bool) → Symbol
  | false, true => .sym1
  | true, false => .sym0
  | false, false => .invalidLow
  | true, true => .invalidHigh

/-- The data bit of a valid symbol (R95). -/
def Symbol.dataBit : Symbol → Option Bool
  | .sym1 => some true
  | .sym0 => some false
  | .invalidLow => none
  | .invalidHigh => none

/-- The symbol at `pos`, if both half-bits are inside the row (42_manchester.md R150, R154). -/
def symbolAt (row : Bits) (pos : Nat) : Option Symbol :=
  match row[pos]?, row[pos + 1]? with
  | some a, some b => some (.ofPair a b)
  | _, _ => none

/-- `{ SR[54:0], b }` (42_manchester.md R150). -/
def shiftIn (v : Payload) (b : Bool) : Payload :=
  (v <<< 1) ||| (BitVec.ofBool b).setWidth 56

/-- The data bits `d[0..]`, first decoded first, as the shift register holds them (30_encoding.md R96). -/
def packBits (d : Bits) : Payload :=
  d.foldl shiftIn 0

/-! ## The slicer's characters -/

/-- `HEXUP(n)` (45_slicer.md R191). -/
def hexUp (n : Nibble) : Byte :=
  if n.toNat ≤ 9 then BitVec.ofNat 8 (0x30 + n.toNat) else BitVec.ofNat 8 (0x41 + (n.toNat - 10))

/-- The DecodedMessage of a plaintext payload (45_slicer.md R185, 30_encoding.md R98). -/
def messageOf (pt : Payload) (retx : Bool) : DecodedMessage where
  seed := payloadByte pt 0
  control := (payloadByte pt 1).extractLsb' 4 4
  checksumNibble := (payloadByte pt 1).extractLsb' 0 4
  counter := payloadByte pt 2 ++ payloadByte pt 3
  addressBytes := payloadByte pt 4 ++ payloadByte pt 5 ++ payloadByte pt 6
  addressHex :=
    hexUp ((payloadByte pt 4).extractLsb' 4 4) ++ hexUp ((payloadByte pt 4).extractLsb' 0 4) ++
    hexUp ((payloadByte pt 5).extractLsb' 4 4) ++ hexUp ((payloadByte pt 5).extractLsb' 0 4) ++
    hexUp ((payloadByte pt 6).extractLsb' 4 4) ++ hexUp ((payloadByte pt 6).extractLsb' 0 4)
  addressId := payloadByte pt 6 ++ payloadByte pt 5 ++ payloadByte pt 4
  isRetransmission := retx

/-- `CTRL_LABEL[c]`, the host adapter's label of a control code (45_slicer.md R194, 30_encoding.md R101; log 21). -/
def ctrlLabel (c : Nibble) : String :=
  match c.toNat with
  | 1 => "My"
  | 2 => "Up"
  | 4 => "Down"
  | 8 => "Prog"
  | 9 => "Sun+Flag"
  | 10 => "Flag"
  | 3 => Config.combinationLabel c
  | 5 => Config.combinationLabel c
  | 6 => Config.combinationLabel c
  | _ => Config.unknownLabelBefore c ++ "?" ++ Config.unknownLabelAfter c

end Sys2Proof.Machine
end

