-- ==== Sys2Proof/Machine/Ops.lean ====
section
/-! DEFINITION. The named updates of the state: the failure action (60_exceptions.md R236) and what clears its result,
the host's writes, and what each unit writes. All writes of one step take effect together (00_scope.md R12). -/

namespace Sys2Proof.Machine

/-! ## Outcomes -/

/-- Go on with `f` where the outcome is a next state. -/
def andThen (o : Host.Outcome State Fault Refusal) (f : State → Host.Outcome State Fault Refusal) :
    Host.Outcome State Fault Refusal :=
  match o with
  | .next s => f s
  | .fault r => .fault r
  | .refused r => .refused r

/-! ## The failure action and what clears a result -/

/-- `raise F(c)` in a step of stage `at_` (60_exceptions.md R236): the block's exception entry. Nothing else is written,
nothing is saved, control goes to DONE. -/
def State.raise (f : Failure) (at_ : Stage) (s : State) : State :=
  { s with status := f.status, failStage := at_.code, msgValid := false, stage := .done }

/-- `raise` with the type and the stage of a cause (60_exceptions.md R231 to R234). -/
def State.raiseCause (c : Cause) (s : State) : State :=
  s.raise c.failure c.stage

/-- What an accepted START writes (46_sequencer.md R203): every core register is wiped. A failure has no return
(60_exceptions.md R242); this is what clears its result. -/
def State.startClear (s : State) : State :=
  { s with stage := .classify, rowIdx := 0, isRetx := false, bitPos := 0, symCnt := 0, sr := 0,
           status := .none, failStage := 0, msgValid := false }

/-- What RESET writes (70_reset_and_hazards.md R260, 10_state.md R41): every core register and `num_rows` to 0, and the
row storage unspecified again, which the model says by listing no row and counting the reset (log 4). What the host
drives in later steps is the host's. -/
def State.resetAll (s : State) : State :=
  { State.reset with inputs := s.inputs, resets := s.resets + 1 }

/-! ## The host's writes -/

/-- LOADROW's write (20_memory.md R66). -/
def State.writeRow (r : Nat) (bits : Bits) (s : State) : State :=
  { s with rows := Memory.write s.rows r bits }

/-- SETNROWS's write (20_memory.md R67). -/
def State.writeNumRows (n : Nat) (s : State) : State :=
  { s with numRows := n }

/-- LOADROW is accepted when `busy = 0`, `r < MAX_ROWS` and `len <= MAX_ROW_BITS`, else ignored (R66, R73). -/
def State.loadRow (r : Nat) (bits : Bits) (s : State) : State :=
  if s.busy = false ∧ r < Config.maxRows ∧ bits.length ≤ Config.maxRowBits then s.writeRow r bits else s

/-- SETNROWS is accepted when `busy = 0` and `n <= MAX_ROWS`, else ignored (R67, R73). -/
def State.setNumRows (n : Nat) (s : State) : State :=
  if s.busy = false ∧ n ≤ Config.maxRows then s.writeNumRows n else s

/-- START is accepted when `busy = 0`, else ignored (46_sequencer.md R203, R213). -/
def State.acceptStart (s : State) : State :=
  if s.busy then s else s.startClear

/-- Take the inputs of this step off what the host drives (log 1). -/
def State.popInput (s : State) : State :=
  { s with inputs := s.inputs.tail }

/-! ## What the units write -/

/-- A choosing CLASSIFY step (40_classifier.md R131): `row_idx` keeps the chosen index. -/
def State.chooseRow (retx : Bool) (s : State) : State :=
  { s with isRetx := retx, stage := .locate }

/-- A skipping CLASSIFY step (40_classifier.md R131). -/
def State.skipRow (s : State) : State :=
  { s with rowIdx := s.rowIdx + 1 }

/-- A passing LOCATE step (41_locator.md R141). -/
def State.located (s : State) : State :=
  { s with bitPos := dataStartBit s.isRetx, symCnt := 0, stage := .manch }

/-- An accepted symbol (42_manchester.md R150). -/
def State.acceptBit (b : Bool) (s : State) : State :=
  { s with sr := shiftIn s.sr b, symCnt := s.symCnt + 1, bitPos := s.bitPos + 2 }

/-- The control transfer `stage <- S` (00_scope.md R12). -/
def State.goto (next : Stage) (s : State) : State :=
  { s with stage := next }

/-- Rewrite the payload registers. -/
def State.setPayload (v : Payload) (s : State) : State :=
  { s with sr := v }

/-- What SLICE writes (45_slicer.md R185). -/
def State.publish (s : State) : State :=
  { s with msgValid := true, status := .success, failStage := 0, stage := .done }

/-- No finished invocation (10_state.md R29, R30, R31). -/
def State.clearResult (s : State) : State :=
  { s with status := .none, failStage := 0, msgValid := false }

/-- Give a value that no register of the block holds (log 10). -/
def State.giving (v : Returned) (s : State) : State :=
  { s with returned := v }

/-! ## Shared by several operations -/

/-- What a symbol does to a decode that has not its 56 symbols yet (30_encoding.md R95, 42_manchester.md R150): a valid
one is accepted, an invalid one raises SHORT_MANCHESTER. Once 56 symbols are accepted the decoder stops and reads
nothing more (R156; log 18). -/
def State.takeSymbol (y : Symbol) (s : State) : State :=
  if Config.nSym ≤ s.symCnt then s
  else
    match y.dataBit with
    | some b => s.acceptBit b
    | none => s.raiseCause .shortManchester

/-- MSYM on the bits of the chosen row (42_manchester.md R150): fewer than two bits left raises SHORT_MANCHESTER. -/
def State.msymOn (row : Bits) (s : State) : State :=
  match symbolAt row s.bitPos with
  | some y => s.takeSymbol y
  | none => s.raiseCause .shortManchester

/-- Run `f` on the bits of row `r`; a row outside the address space is the fault `noSuchRow` (log 5),
a row at or above `num_rows` inside it reads as its storage (log 29). -/
def withRow (r : Nat) (f : Bits → State → State) (s : State) : Host.Outcome State Fault Refusal :=
  match s.readRow r with
  | some row => .next (f row s)
  | none => .fault (.noSuchRow r)

/-- Give the value of control code `c`: the block passes the code through unchanged, the host adapter prints its label
(30_encoding.md R101, R102; log 14). -/
def State.passControl (c : Nibble) (s : State) : State :=
  s.giving (.control c (ctrlLabel c))

end Sys2Proof.Machine
end

