-- ==== Sys2Proof/Machine/Codes.lean ====
section
/-! DEFINITION. The code rows of the opcode table run as instructions: STATUS (30_encoding.md R99), CAUSE
(60_exceptions.md R231 to R236), CONTROL (30_encoding.md R101). -/

namespace Sys2Proof.Machine

/-- A status failure code is written by a failure (10_state.md R29): `raise` at the running stage, where that stage
can raise this type (60_exceptions.md R235, R236); in any other stage nothing writes it (log 12). -/
def State.failHere (f : Failure) (s : State) : State :=
  if f.raisedIn s.stage then s.raise f s.stage else s

/-- NONE (R99): no invocation has finished. It is the status of IDLE and of stages 1 to 6 (60_exceptions.md R235); in
DONE the result is held until START or RESET (46_sequencer.md R218; log 12). -/
def execStatusNone (s : State) : Host.Outcome State Fault Refusal :=
  .next (if s.done then s else s.clearResult)

/-- SUCCESS (R99): written by SLICE and by nothing else (10_state.md R29; log 12). -/
def execStatusSuccess (s : State) : Host.Outcome State Fault Refusal :=
  .next (if s.stage = .slice then s.publish else s)

/-- SANITY_FAILURE (R99): written by a failure of CLASSIFY or LOCATE (log 12). -/
def execStatusSanityFailure (s : State) : Host.Outcome State Fault Refusal :=
  .next (s.failHere .sanity)

/-- INTEGRITY_FAILURE (R99): written by a failure of MANCH or FOLD (log 12). -/
def execStatusIntegrityFailure (s : State) : Host.Outcome State Fault Refusal :=
  .next (s.failHere .integrity)

/-- NO_ROW_IN_BAND (60_exceptions.md R231): the failure action with `status` 2, `fail_stage` 1 (log 13). -/
def execNoRowInBand (s : State) : Host.Outcome State Fault Refusal :=
  .next (s.raiseCause .noRowInBand)

/-- PREAMBLE_NOT_AT_0 (R232): `status` 2, `fail_stage` 2 (log 13). -/
def execPreambleNotAt0 (s : State) : Host.Outcome State Fault Refusal :=
  .next (s.raiseCause .preambleNotAt0)

/-- SHORT_MANCHESTER (R233): `status` 3, `fail_stage` 3 (log 13). -/
def execShortManchester (s : State) : Host.Outcome State Fault Refusal :=
  .next (s.raiseCause .shortManchester)

/-- CHECKSUM_NONZERO (R234): `status` 3, `fail_stage` 5 (log 13). -/
def execChecksumNonzero (s : State) : Host.Outcome State Fault Refusal :=
  .next (s.raiseCause .checksumNonzero)

/-- CTRL_0 (30_encoding.md R101): unknown, reserved (log 14). -/
def execCtrl0 (s : State) : Host.Outcome State Fault Refusal :=
  .next (s.passControl 0)

/-- CTRL_1 (30_encoding.md R101): "My" (log 14). -/
def execCtrl1 (s : State) : Host.Outcome State Fault Refusal :=
  .next (s.passControl 1)

/-- CTRL_2 (30_encoding.md R101): "Up" (log 14). -/
def execCtrl2 (s : State) : Host.Outcome State Fault Refusal :=
  .next (s.passControl 2)

/-- CTRL_3 (30_encoding.md R101): a combination (log 14). -/
def execCtrl3 (s : State) : Host.Outcome State Fault Refusal :=
  .next (s.passControl 3)

/-- CTRL_4 (30_encoding.md R101): "Down" (log 14). -/
def execCtrl4 (s : State) : Host.Outcome State Fault Refusal :=
  .next (s.passControl 4)

/-- CTRL_5 (30_encoding.md R101): a combination (log 14). -/
def execCtrl5 (s : State) : Host.Outcome State Fault Refusal :=
  .next (s.passControl 5)

/-- CTRL_6 (30_encoding.md R101): a combination (log 14). -/
def execCtrl6 (s : State) : Host.Outcome State Fault Refusal :=
  .next (s.passControl 6)

/-- CTRL_7 (30_encoding.md R101): unknown, reserved (log 14). -/
def execCtrl7 (s : State) : Host.Outcome State Fault Refusal :=
  .next (s.passControl 7)

/-- CTRL_8 (30_encoding.md R101): "Prog" (log 14). -/
def execCtrl8 (s : State) : Host.Outcome State Fault Refusal :=
  .next (s.passControl 8)

/-- CTRL_9 (30_encoding.md R101): "Sun+Flag" (log 14). -/
def execCtrl9 (s : State) : Host.Outcome State Fault Refusal :=
  .next (s.passControl 9)

/-- CTRL_10 (30_encoding.md R101): "Flag" (log 14). -/
def execCtrl10 (s : State) : Host.Outcome State Fault Refusal :=
  .next (s.passControl 10)

/-- CTRL_11 (30_encoding.md R101): unknown, reserved (log 14). -/
def execCtrl11 (s : State) : Host.Outcome State Fault Refusal :=
  .next (s.passControl 11)

/-- CTRL_12 (30_encoding.md R101): unknown, reserved (log 14). -/
def execCtrl12 (s : State) : Host.Outcome State Fault Refusal :=
  .next (s.passControl 12)

/-- CTRL_13 (30_encoding.md R101): unknown, reserved (log 14). -/
def execCtrl13 (s : State) : Host.Outcome State Fault Refusal :=
  .next (s.passControl 13)

/-- CTRL_14 (30_encoding.md R101): unknown, reserved (log 14). -/
def execCtrl14 (s : State) : Host.Outcome State Fault Refusal :=
  .next (s.passControl 14)

/-- CTRL_15 (30_encoding.md R101): reserved (90_conflicts.md C3) (log 14). -/
def execCtrl15 (s : State) : Host.Outcome State Fault Refusal :=
  .next (s.passControl 15)

end Sys2Proof.Machine
end

