-- ==== Sys2Proof/Machine/Checksum.lean ====
section
/-! DEFINITION. Unit 5, the checksum folder: FOLD (44_checksum.md R175, R176). -/

namespace Sys2Proof.Machine

/-- FOLD (R176): on to SLICE when the fold is 0, else IntegrityFailure. -/
def execFold (s : State) : Host.Outcome State Fault Refusal :=
  .next (if foldNibble s.sr = 0 then s.goto .slice else s.raiseCause .checksumNonzero)

end Sys2Proof.Machine
end

