-- ==== Sys2Proof/Machine/Classifier.lean ====
section
/-! DEFINITION. Unit 1, the frame classifier: CLASSIFY as a step (40_classifier.md R131) and as a function (R130). -/

namespace Sys2Proof.Machine

/-- What a CLASSIFY step does with a row of length `len` (R131). -/
def State.classifyLength (len : Nat) (s : State) : State :=
  match bandOf len with
  | some retx => s.chooseRow retx
  | none => s.skipRow

/-- CLASSIFY, the step (R131): `RowLen` is not read when every row has been examined. -/
def execClassify (s : State) : Host.Outcome State Fault Refusal :=
  if s.numRows ≤ s.rowIdx then .next (s.raiseCause .noRowInBand)
  else withRow s.rowIdx (fun row => State.classifyLength row.length) s

/-- CLASSIFY, the function, from row index `r` on (R130): one scan, the first row in either band. -/
def classifyFrom : (r : Nat) → List Bits → Option (Bool × Nat)
  | _, [] => none
  | r, row :: rows =>
    match bandOf row.length with
    | some retx => some (retx, r)
    | none => classifyFrom (r + 1) rows

/-- `Classify(B)` (R130). -/
def classify (rows : List Bits) : Option (Bool × Nat) :=
  classifyFrom 0 rows

end Sys2Proof.Machine
end

