-- ==== Sys2Proof/Machine/Descrambler.lean ====
section
/-! DEFINITION. Unit 4, the XOR descrambler: DESCR (43_descrambler.md R165, R167), and the test aid SCRAMBLE (R169). -/

namespace Sys2Proof.Machine

/-- `PT[0] = S[0]`, `PT[i] = S[i] ^ S[i-1]`, both operands scrambled bytes (R165, R167). -/
def descramble (v : Payload) : Payload :=
  ofBytes (payloadByte v 0)
    (payloadByte v 1 ^^^ payloadByte v 0) (payloadByte v 2 ^^^ payloadByte v 1) (payloadByte v 3 ^^^ payloadByte v 2)
    (payloadByte v 4 ^^^ payloadByte v 3) (payloadByte v 5 ^^^ payloadByte v 4) (payloadByte v 6 ^^^ payloadByte v 5)

/-- `S[0] = PT[0]`, `S[i] = PT[i] ^ S[i-1]` upward (R169). -/
def scramble (pt : Payload) : Payload :=
  let s0 := payloadByte pt 0
  let s1 := payloadByte pt 1 ^^^ s0
  let s2 := payloadByte pt 2 ^^^ s1
  let s3 := payloadByte pt 3 ^^^ s2
  let s4 := payloadByte pt 4 ^^^ s3
  let s5 := payloadByte pt 5 ^^^ s4
  let s6 := payloadByte pt 6 ^^^ s5
  ofBytes s0 s1 s2 s3 s4 s5 s6

/-- The byte-at-a-time form (43_descrambler.md R166): for each index of `order` in turn, that byte is overwritten with its
XOR with the byte before it as it then stands. The order 6, 5, 4, 3, 2, 1 is the required one (70_reset_and_hazards.md
R265); no operation of the model runs this form. -/
def inPlaceXor (order : List Nat) (b : List Byte) : List Byte :=
  order.foldl (fun b i => b.set i (b.getD i 0 ^^^ b.getD (i - 1) 0)) b

/-- The seven bytes `P[0], ..., P[6]`. -/
def payloadBytes (v : Payload) : List Byte :=
  [payloadByte v 0, payloadByte v 1, payloadByte v 2, payloadByte v 3, payloadByte v 4, payloadByte v 5, payloadByte v 6]

/-- DESCR (R165, R167): all six XORs from the values before the step. -/
def execDescr (s : State) : Host.Outcome State Fault Refusal :=
  .next ((s.setPayload (descramble s.sr)).goto .fold)

/-- SCRAMBLE (R169), a test aid: a value, no register written (log 10). -/
def execScramble (pt : Payload) (s : State) : Host.Outcome State Fault Refusal :=
  .next (s.giving (.bytes (scramble pt)))

end Sys2Proof.Machine
end

