-- ==== Sys2Proof/Machine/HostCommands.lean ====
section
/-! DEFINITION. The host commands RESET, START, LOADROW, SETNROWS, and the two waiting stages IDLE_WAIT and DONE_HOLD. -/

namespace Sys2Proof.Machine

/-- RESET (70_reset_and_hazards.md R260): whatever the stage and whatever else is asserted; `x` is the `start` wire,
which is ignored. -/
def execReset (_x : Bool) (s : State) : Host.Outcome State Fault Refusal :=
  .next s.resetAll

/-- START (46_sequencer.md R203): accepted when `busy = 0`, ignored and not remembered when `busy = 1` (R213). -/
def execStart (s : State) : Host.Outcome State Fault Refusal :=
  .next s.acceptStart

/-- LOADROW(r, len, bits) (20_memory.md R66, R73). -/
def execLoadrow (r : Nat) (bits : Bits) (s : State) : Host.Outcome State Fault Refusal :=
  .next (s.loadRow r bits)

/-- SETNROWS(n) (20_memory.md R67, R73). -/
def execSetnrows (n : Nat) (s : State) : Host.Outcome State Fault Refusal :=
  .next (s.setNumRows n)

/-- IDLE_WAIT (46_sequencer.md R203): nothing changes; START is accepted in this stage by START itself. -/
def execIdleWait (s : State) : Host.Outcome State Fault Refusal :=
  .next s

/-- DONE_HOLD (46_sequencer.md R203, R218): the result stays; START is accepted in this stage by START itself. -/
def execDoneHold (s : State) : Host.Outcome State Fault Refusal :=
  .next s

end Sys2Proof.Machine
end

