-- ==== Sys2Proof/Machine/Locator.lean ====
section
/-! DEFINITION. Unit 2, the bit-pattern locator and preamble validator: SEARCH (41_locator.md R140), LOCATE (R141). -/

namespace Sys2Proof.Machine

/-- LOCATE on the bits of the chosen row (R141): the pattern must be found at offset 0. -/
def State.locateOn (row : Bits) (s : State) : State :=
  if search row 0 (patternBits s.isRetx) = some 0 then s.located
  else s.raiseCause .preambleNotAt0

/-- LOCATE (R141). -/
def execLocate (s : State) : Host.Outcome State Fault Refusal :=
  withRow s.rowIdx State.locateOn s

/-- SEARCH(r, start, pat, L) (R140): a value, no register written, no failure raised; the value is `returned` (log 10).
Run by itself it acts in any stage (log 23) and on a row at or above `num_rows` too (log 29). -/
def execSearch (r startBit : Nat) (pat : Bits) (s : State) : Host.Outcome State Fault Refusal :=
  withRow r (fun row => State.giving (.offset (search row startBit pat))) s

end Sys2Proof.Machine
end

