-- ==== Sys2Proof/Machine/Manchester.lean ====
section
/-! DEFINITION. Unit 3, the Manchester decoder: MSYM (42_manchester.md R150), MANCH (R158), the decoder as a function
(R151), the symbol codes run as instructions (30_encoding.md R95) and the test aid MANCH_ENCODE (R160). -/

namespace Sys2Proof.Machine

/-- MSYM (R150), for `sym_cnt < 56`; once 56 symbols are accepted nothing more is read (R156; log 18). The spec runs it at
stage code 3 only (30_encoding.md R103); that it acts whatever the stage register holds when it is run by itself is the
model's choice (DESIGN CHOICE, log 23). -/
def execMsym (s : State) : Host.Outcome State Fault Refusal :=
  if Config.nSym ≤ s.symCnt then .next s
  else withRow s.rowIdx State.msymOn s

/-- MANCH, the step (R158): leave when all 56 symbols are in, else one MSYM. -/
def execManch (s : State) : Host.Outcome State Fault Refusal :=
  if Config.nSym ≤ s.symCnt then .next (s.goto .descr)
  else withRow s.rowIdx State.msymOn s

/-- `ManchesterDecode(r, start, max)` on the bits of row `r` (R151): the decoded bits and the end offset. -/
def manchesterDecode (row : Bits) : (pos max : Nat) → Bits × Nat
  | pos, 0 => ([], pos)
  | pos, max + 1 =>
    match (symbolAt row pos).bind Symbol.dataBit with
    | some b =>
      match manchesterDecode row (pos + 2) max with
      | (d, e) => (b :: d, e)
    | none => ([], pos)

/-- `MANCH_ENCODE(d)` (R160): each 1 becomes 01, each 0 becomes 10. -/
def manchEncode : Bits → Bits
  | [] => []
  | b :: d => (!b) :: b :: manchEncode d

/-- MANCH_ENCODE (R160), a test aid: a value, no register written (log 10). -/
def execManchEncode (d : Bits) (s : State) : Host.Outcome State Fault Refusal :=
  .next (s.giving (.bits (manchEncode d)))

/-- SYM_1 (30_encoding.md R95) met by the decoder: data bit 1 (log 11). -/
def execSym1 (s : State) : Host.Outcome State Fault Refusal :=
  .next (s.takeSymbol .sym1)

/-- SYM_0 (R95) met by the decoder: data bit 0 (log 11). -/
def execSym0 (s : State) : Host.Outcome State Fault Refusal :=
  .next (s.takeSymbol .sym0)

/-- SYM_INVALID_LOW (R95) met by the decoder: decoding stops, IntegrityFailure (log 11). -/
def execSymInvalidLow (s : State) : Host.Outcome State Fault Refusal :=
  .next (s.takeSymbol .invalidLow)

/-- SYM_INVALID_HIGH (R95) met by the decoder: decoding stops, IntegrityFailure (log 11). -/
def execSymInvalidHigh (s : State) : Host.Outcome State Fault Refusal :=
  .next (s.takeSymbol .invalidHigh)

end Sys2Proof.Machine
end

