-- ==== Sys2Proof/Machine/Slicer.lean ====
section
/-! DEFINITION. Unit 6, the payload slicer: SLICE (45_slicer.md R185), HEXUP (R191) and the payload layout PAYLOAD
(30_encoding.md R97, R98); the output ports (10_state.md R34, R40); the record of the reporting layer (R193 to R196). -/

namespace Sys2Proof.Machine

/-- SLICE (R185): it cannot fail. The message is on the ports from `msg_valid`, see `State.outputs`. -/
def execSlice (s : State) : Host.Outcome State Fault Refusal :=
  .next s.publish

/-- HEXUP(n) (R191): a character, no register written (log 10). -/
def execHexup (n : Nibble) (s : State) : Host.Outcome State Fault Refusal :=
  .next (s.giving (.character (hexUp n)))

/-- PAYLOAD (30_encoding.md R97, R98): the fields of a plaintext payload assembled into the message; no register
written (log 15). -/
def execPayload (seed : Byte) (control checksum : Nibble) (counter : BitVec 16) (address : BitVec 24) (s : State) :
    Host.Outcome State Fault Refusal :=
  .next (s.giving (.message (messageOf (seed ++ control ++ checksum ++ counter ++ address) s.isRetx)))

/-! ## Output ports -/

/-- The output ports (10_state.md R34). -/
structure OutputPorts where
  outSeed : Byte
  outControl : Nibble
  outChecksumNibble : Nibble
  outCounter : BitVec 16
  outAddressBytes : BitVec 24
  outAddressHex : BitVec 48
  outAddressId : BitVec 24
  outIsRetx : Bool
  msgValid : Bool
  status : BitVec 2
  failStage : BitVec 3
  busy : Bool
  done : Bool
  cfgShort : BitVec 10
  cfgLong : BitVec 10
  cfgTol : BitVec 5
  cfgGap : BitVec 12
  cfgReset : BitVec 14
  deriving DecidableEq, Repr

/-- What the message ports show while `msg_valid = 0` (45_slicer.md R197). -/
def DecodedMessage.zero : DecodedMessage := ⟨0, 0, 0, 0, 0, 0, 0, false⟩

/-- The message the ports show: combinational in `P` and `is_retx`, gated by `msg_valid` (10_state.md R34). -/
def State.message (s : State) : DecodedMessage :=
  if s.msgValid then messageOf s.sr s.isRetx else .zero

/-- The ports for a message and the result registers; the five demodulator constants always (10_state.md R40). -/
def portsOf (m : DecodedMessage) (valid : Bool) (status : Status) (failStage : BitVec 3) (busy done : Bool) :
    OutputPorts where
  outSeed := m.seed
  outControl := m.control
  outChecksumNibble := m.checksumNibble
  outCounter := m.counter
  outAddressBytes := m.addressBytes
  outAddressHex := m.addressHex
  outAddressId := m.addressId
  outIsRetx := m.isRetransmission
  msgValid := valid
  status := status.code
  failStage := failStage
  busy := busy
  done := done
  cfgShort := BitVec.ofNat 10 Config.demodShort
  cfgLong := BitVec.ofNat 10 Config.demodLong
  cfgTol := BitVec.ofNat 5 Config.demodTol
  cfgGap := BitVec.ofNat 12 Config.demodGap
  cfgReset := BitVec.ofNat 14 Config.demodReset

/-- The output ports of a state (10_state.md R34). -/
def State.outputs (s : State) : OutputPorts :=
  portsOf s.message s.msgValid s.status s.failStage s.busy s.done

/-! ## The reporting layer's record, outside the block -/

/-- The seven fields of the record (45_slicer.md R193). -/
structure HostRecord where
  model : String
  id : Nat
  control : String
  counter : Nat
  address : String
  retransmission : String
  mic : String
  deriving DecidableEq, Repr

/-- The characters of `out_address_hex`, first character in bits 47..40 (45_slicer.md R191). -/
def hexString (v : BitVec 48) : String :=
  String.ofList ((List.range 6).map (fun k => Char.ofNat (v.extractLsb' (8 * (5 - k)) 8).toNat))

/-- The record built from a message (R193, R194, R195; log 28). -/
def recordOf (m : DecodedMessage) : HostRecord where
  model := "Somfy-RTS"
  id := m.addressId.toNat
  control := ctrlLabel m.control
  counter := m.counter.toNat
  address := hexString m.addressHex
  retransmission := if m.isRetransmission then "TRUE" else "FALSE"
  mic := "CHECKSUM"

/-- The record the reporting layer builds from the ports: none unless the result is a success (R193). -/
def State.hostRecord (s : State) : Option HostRecord :=
  if s.status = .success then some (recordOf s.message) else none

/-- The default display: five of the seven fields in this order (R196). The text forms are the record's strings but for the
counter, which R193 gives as an integer only: that it is shown as a decimal numeral without leading zeros is the model's
choice (DESIGN CHOICE, log 31; 91_not_in_source.md N17). -/
def HostRecord.display (r : HostRecord) : List (String × String) :=
  [("model", r.model), ("control", r.control), ("counter", toString r.counter), ("address", r.address),
   ("retransmission", r.retransmission)]

end Sys2Proof.Machine
end

