-- ==== Sys2Proof/Machine/Sequencer.lean ====
section
/-! DEFINITION. The composite DECODE: as the pure function of 46_sequencer.md R200, and as the run of the stages to DONE
(30_encoding.md R105); the frame formats FRAME_FIRST and FRAME_RETX run as a capture of one row. -/

namespace Sys2Proof.Machine

/-! ## The function the block computes -/

/-- Steps 4 to 6 of `Decode(B)` (R200): descramble, fold, slice. -/
def finishDecode (retx : Bool) (scrambled : Payload) : Result :=
  if foldNibble (descramble scrambled) = 0 then .success (messageOf (descramble scrambled) retx)
  else .integrityFailure .checksumNonzero

/-- Steps 2 to 6 of `Decode(B)` (R200) on the bits of the chosen row. -/
def decodeChosen (retx : Bool) (row : Bits) : Result :=
  if row.take (preambleBitLength retx) = patternBits retx then
    if (manchesterDecode row (dataStartBit retx) Config.nSym).1.length = Config.nSym then
      finishDecode retx (packBits (manchesterDecode row (dataStartBit retx) Config.nSym).1)
    else .integrityFailure .shortManchester
  else .sanityFailure .preambleNotAt0

/-- `Decode(B)` (R200): a total function of the rows the core sees. -/
def decodeRows (rows : List Bits) : Result :=
  match classify rows with
  | some (retx, r) =>
    match rows[r]? with
    | some row => decodeChosen retx row
    | none => .sanityFailure .noRowInBand
  | none => .sanityFailure .noRowInBand

/-- The ports that encode a result in DONE (46_sequencer.md R214). -/
def Result.ports : Result → OutputPorts
  | .success m => portsOf m true .success 0 false true
  | .sanityFailure c => portsOf .zero false .sanityFailure c.stage.code false true
  | .integrityFailure c => portsOf .zero false .integrityFailure c.stage.code false true

/-! ## The run of the stages -/

/-- One step of the stage the block is in (46_sequencer.md R202), the host's inputs apart. -/
def stageStep (s : State) : Host.Outcome State Fault Refusal :=
  match s.stage with
  | .idle => .next s
  | .classify => execClassify s
  | .locate => execLocate s
  | .manch => execManch s
  | .descr => execDescr s
  | .fold => execFold s
  | .slice => execSlice s
  | .done => .next s

/-- Run the stages until the block is not busy, at most `n` of them. -/
def runStages : Nat → State → Host.Outcome State Fault Refusal
  | 0, s => .next s
  | n + 1, s => if s.busy then andThen (stageStep s) (runStages n) else .next s

/-- Enough stage steps to reach DONE from any stage: one for each row and one more in CLASSIFY, one in LOCATE, 57 in
MANCH, three after it. It bounds the recursion and says nothing of time (46_sequencer.md R215; log 26). -/
def runBound (s : State) : Nat :=
  s.numRows + 1 + 1 + (Config.nSym + 1) + 3

/-- The rest of an invocation, to DONE. -/
def runToDone (s : State) : Host.Outcome State Fault Refusal :=
  runStages (runBound s) s

/-- DECODE (46_sequencer.md R200, 30_encoding.md R105): the run of the stages to DONE. At stage code 001 it is the whole
run and begins with the clean registers an invocation begins with (R203); at a later code it is the rest of the run
from there, on the registers as they are (log 17). The spec runs it at the stage codes 1 to 6 only (30_encoding.md R103)
and says nothing of any other state of the block: that DECODE run by itself acts whatever the stage register holds, also
while `busy = 1`, and overwrites it, is the model's choice (DESIGN CHOICE, log 32). -/
def execDecode (c : Stage) (s : State) : Host.Outcome State Fault Refusal :=
  match c with
  | .classify => runToDone s.startClear
  | .locate => runToDone (s.goto .locate)
  | .manch => runToDone (s.goto .manch)
  | .descr => runToDone (s.goto .descr)
  | .fold => runToDone (s.goto .fold)
  | .slice => runToDone (s.goto .slice)
  | .idle => .next s
  | .done => .next s

/-! ## A frame as a capture of one row -/

/-- The bits of a frame row (30_encoding.md R90, R91): pattern, unexamined bit, half-bits, trailing bits. -/
def frameBits (retx : Bool) (x : Bool) (m : BitVec 112) (t : Bits) : Bits :=
  patternBits retx ++ x :: (bitsMsb 112 m.toNat ++ t)

/-- What the host does with a capture of one row (70_reset_and_hazards.md R263, steps 3 and 4) and the block then does
with it: LOADROW(0, row), SETNROWS(1), START, the run to DONE. While `busy = 1` all of it is ignored (R73, R213;
log 16). -/
def State.capture (row : Bits) (s : State) : Host.Outcome State Fault Refusal :=
  if s.busy then .next s else runToDone ((s.loadRow 0 row).setNumRows 1).acceptStart

/-- FRAME_FIRST (30_encoding.md R90): the frame as the capture's only row, decoded (log 16). -/
def execFrameFirst (x : Bool) (m : BitVec 112) (t : Bits) (s : State) : Host.Outcome State Fault Refusal :=
  s.capture (frameBits false x m t)

/-- FRAME_RETX (30_encoding.md R90): the frame as the capture's only row, decoded (log 16). -/
def execFrameRetx (x : Bool) (m : BitVec 112) (t : Bits) (s : State) : Host.Outcome State Fault Refusal :=
  s.capture (frameBits true x m t)

end Sys2Proof.Machine
end

