-- ==== Sys2Proof/Machine/Dispatch.lean ====
section
/-! DEFINITION. One arm for each constructor of Instr: a direct call of its meaning. -/

namespace Sys2Proof.Machine

def exec (i : Instr) (s : State) : Host.Outcome State Fault Refusal :=
  match i with
  | .idleWait => Sys2Proof.Machine.execIdleWait s
  | .classify => Sys2Proof.Machine.execClassify s
  | .locate => Sys2Proof.Machine.execLocate s
  | .manch => Sys2Proof.Machine.execManch s
  | .descr => Sys2Proof.Machine.execDescr s
  | .fold => Sys2Proof.Machine.execFold s
  | .slice => Sys2Proof.Machine.execSlice s
  | .doneHold => Sys2Proof.Machine.execDoneHold s
  | .reset x => Sys2Proof.Machine.execReset x s
  | .start => Sys2Proof.Machine.execStart s
  | .loadrow r bits => Sys2Proof.Machine.execLoadrow r bits s
  | .setnrows n => Sys2Proof.Machine.execSetnrows n s
  | .msym => Sys2Proof.Machine.execMsym s
  | .search r startBit pat => Sys2Proof.Machine.execSearch r startBit pat s
  | .hexup n => Sys2Proof.Machine.execHexup n s
  | .decode c => Sys2Proof.Machine.execDecode c s
  | .scramble pt => Sys2Proof.Machine.execScramble pt s
  | .manchEncode d => Sys2Proof.Machine.execManchEncode d s
  | .frameFirst x m t => Sys2Proof.Machine.execFrameFirst x m t s
  | .frameRetx x m t => Sys2Proof.Machine.execFrameRetx x m t s
  | .sym1 => Sys2Proof.Machine.execSym1 s
  | .sym0 => Sys2Proof.Machine.execSym0 s
  | .symInvalidLow => Sys2Proof.Machine.execSymInvalidLow s
  | .symInvalidHigh => Sys2Proof.Machine.execSymInvalidHigh s
  | .payload seed control checksum counter address => Sys2Proof.Machine.execPayload seed control checksum counter address s
  | .statusNone => Sys2Proof.Machine.execStatusNone s
  | .statusSuccess => Sys2Proof.Machine.execStatusSuccess s
  | .statusSanityFailure => Sys2Proof.Machine.execStatusSanityFailure s
  | .statusIntegrityFailure => Sys2Proof.Machine.execStatusIntegrityFailure s
  | .noRowInBand => Sys2Proof.Machine.execNoRowInBand s
  | .preambleNotAt0 => Sys2Proof.Machine.execPreambleNotAt0 s
  | .shortManchester => Sys2Proof.Machine.execShortManchester s
  | .checksumNonzero => Sys2Proof.Machine.execChecksumNonzero s
  | .ctrl0 => Sys2Proof.Machine.execCtrl0 s
  | .ctrl1 => Sys2Proof.Machine.execCtrl1 s
  | .ctrl2 => Sys2Proof.Machine.execCtrl2 s
  | .ctrl3 => Sys2Proof.Machine.execCtrl3 s
  | .ctrl4 => Sys2Proof.Machine.execCtrl4 s
  | .ctrl5 => Sys2Proof.Machine.execCtrl5 s
  | .ctrl6 => Sys2Proof.Machine.execCtrl6 s
  | .ctrl7 => Sys2Proof.Machine.execCtrl7 s
  | .ctrl8 => Sys2Proof.Machine.execCtrl8 s
  | .ctrl9 => Sys2Proof.Machine.execCtrl9 s
  | .ctrl10 => Sys2Proof.Machine.execCtrl10 s
  | .ctrl11 => Sys2Proof.Machine.execCtrl11 s
  | .ctrl12 => Sys2Proof.Machine.execCtrl12 s
  | .ctrl13 => Sys2Proof.Machine.execCtrl13 s
  | .ctrl14 => Sys2Proof.Machine.execCtrl14 s
  | .ctrl15 => Sys2Proof.Machine.execCtrl15 s

end Sys2Proof.Machine
end

