-- ==== Sys2Proof/Machine/Fetch.lean ====
section
/-! DEFINITION. What a step runs: the operations the input ports and the `stage` register select (46_sequencer.md R201,
R202), and where a code stands when it is fetched. -/

namespace Sys2Proof.Machine

/-- Nothing driven. -/
def HostInput.idle : HostInput := ⟨false, false, none⟩

/-- What the host drives in this step; with nothing left to drive, nothing is driven (log 1). -/
def State.currentInput (s : State) : HostInput :=
  match s.inputs with
  | [] => HostInput.idle
  | i :: _ => i

/-- The command on the write port as an instruction (20_memory.md R66, R67). -/
def HostWrite.instr : HostWrite → Instr
  | .loadRow r bits => .loadrow r bits
  | .setNRows n => .setnrows n

/-- The operations of a step, in order (R201, R202): RESET alone when `rst` is driven (70_reset_and_hazards.md R260);
otherwise the host write, START, and the operation of the stage code as it stands before the step. A host write and
START act only while `busy = 0` and the stage operation of IDLE and DONE changes nothing, so the order stands for
"at the same time" (log 24). -/
def State.fetch (s : State) : List Instr :=
  match hostInInstr s.currentInput.rst s.currentInput.start with
  | some (.reset x) => [.reset x]
  | some i => s.currentInput.write.toList.map HostWrite.instr ++ [i, stageInstr s.stage]
  | none => s.currentInput.write.toList.map HostWrite.instr ++ [stageInstr s.stage]

/-! ## Placing a code where it is read (log 2) -/

/-- Drive this input next. -/
def State.pushInput (i : HostInput) (s : State) : State :=
  { s with inputs := i :: s.inputs }

/-- The stage register holds this code and nothing is driven: the next step runs that stage's operation. -/
def State.placeStage (st : Stage) (s : State) : State :=
  (s.goto st).pushInput HostInput.idle

/-- Put a row into the buffer as row 0 and choose it. -/
def State.placeRow (row : Bits) (s : State) : State :=
  { s with rows := Memory.write s.rows 0 row, rowIdx := 0 }

/-- Store a code word where the next step reads it. A stage code goes into `stage`; the input pair on the input wires; a
payload into SR and a control code into `P[1][7:4]` with SLICE next; a frame into row 0 as the only row with CLASSIFY
next; a symbol into the two row bits under the cursor with MANCH next; a cause becomes the stage that raises it with
the condition under which it raises it. The other code spaces are read by no step and change nothing. -/
def State.placeCode (w : CodeWord) (s : State) : State :=
  match w.format, w.code with
  | .stage, [b2, b1, b0] => s.placeStage (Stage.ofBits b2 b1 b0)
  | .hostIn, [rst, start] => s.pushInput ⟨rst, start, none⟩
  | .payload56, code => (s.setPayload (BitVec.ofNat 56 (natMsb code))).placeStage .slice
  | .control, [c3, c2, c1, c0] =>
    (s.setPayload ((s.sr &&& ~~~(0x0F#56 <<< 44)) ||| (BitVec.ofNat 56 (natMsb [c3, c2, c1, c0]) <<< 44))).placeStage
      .slice
  | .row, code => ((s.startClear.placeRow code).writeNumRows 1).placeStage .classify
  | .msymbol, [a, b] => { (s.placeRow [a, b]).placeStage .manch with bitPos := 0, symCnt := 0 }
  | .cause, [true, false, false, false, true] => { s.placeStage .classify with rowIdx := s.numRows }
  | .cause, [true, false, false, true, false] => (s.placeRow []).placeStage .locate
  | .cause, [true, true, false, true, true] => { (s.placeRow []).placeStage .manch with symCnt := 0 }
  | .cause, [true, true, true, false, true] => (s.setPayload 1).placeStage .fold
  | _, _ => s

/-- Store the host's number where the next step reads it; a number that is no code word changes nothing. -/
def State.placeTableWord (s : State) (nbits w : Nat) : State :=
  match tableWord nbits w with
  | some cw => s.placeCode cw
  | none => s

end Sys2Proof.Machine
end

