-- ==== Sys2Proof/Machine/Step.lean ====
section
/-! DEFINITION. One step of the block: the operations the inputs and the stage select, run in order (46_sequencer.md R201,
R202), and where the host's number is stored so that the next step reads it. -/

namespace Sys2Proof.Machine

/-- Run the operations of a step one after the other. -/
def runAll : List Instr → State → Host.Outcome State Fault Refusal
  | [], s => .next s
  | i :: is, s => andThen (exec i s) (runAll is)

/-- One step (46_sequencer.md R202). The inputs of the step are taken off what the host drives. -/
def step (s : State) : Host.Outcome State Fault Refusal :=
  runAll s.fetch s.popInput

/-- The state with the host's number stored where the next step reads its code (log 2). -/
def State.withFetchWord (s : State) (nbits w : Nat) : State :=
  s.placeTableWord nbits w

end Sys2Proof.Machine
end

