-- ==== Sys2Proof/Safety.lean ====
section
/-! DEFINITION. What a good state of the block is: the legal values of its registers at every stage, and what the registers
hold of the row being decoded (10_state.md R22, R25 to R37; 60_exceptions.md R235). -/

namespace Sys2Proof.Machine

/-- Stages 2 to 6: a row has been chosen (40_classifier.md R131). -/
def rowChosen : Stage → Bool
  | .idle => false
  | .classify => false
  | .locate => true
  | .manch => true
  | .descr => true
  | .fold => true
  | .slice => true
  | .done => false

/-- Stages 3 to 6: the pattern has been found at offset 0 (41_locator.md R141). -/
def patternFound : Stage → Bool
  | .idle => false
  | .classify => false
  | .locate => false
  | .manch => true
  | .descr => true
  | .fold => true
  | .slice => true
  | .done => false

/-- Stages 4 to 6: all 56 symbols are in (42_manchester.md R158). -/
def symbolsIn : Stage → Bool
  | .idle => false
  | .classify => false
  | .locate => false
  | .manch => false
  | .descr => true
  | .fold => true
  | .slice => true
  | .done => false

/-- The pair (`status`, `fail_stage`) of every stage (60_exceptions.md R235): in DONE one of five, elsewhere (NONE, 0). -/
def State.resultLegal (s : State) : Prop :=
  if s.stage = .done then
    (s.status = .success ∧ s.failStage = 0) ∨ (s.status = .sanityFailure ∧ s.failStage = 1) ∨
    (s.status = .sanityFailure ∧ s.failStage = 2) ∨ (s.status = .integrityFailure ∧ s.failStage = 3) ∨
    (s.status = .integrityFailure ∧ s.failStage = 5)
  else s.status = .none ∧ s.failStage = 0

/-- The bits of the chosen row. -/
def State.chosenRow (s : State) : Bits :=
  s.rowAt s.rowIdx

/-- The legal values of the registers at every stage. -/
structure State.Inv (s : State) : Prop where
  /-- The row buffer is in its canonical form. -/
  rows_wf : Memory.wf s.rows = true
  /-- 20_memory.md R62. -/
  numRows_le : s.numRows ≤ Config.maxRows
  /-- 10_state.md R25, R36. -/
  rowIdx_le : s.rowIdx ≤ Config.maxRows
  /-- 10_state.md R27. -/
  symCnt_le : s.symCnt ≤ 56
  /-- 10_state.md R26. -/
  bitPos_le : s.bitPos ≤ 177
  /-- 10_state.md R31. -/
  valid : s.msgValid = true ↔ s.status = .success
  /-- 60_exceptions.md R235. -/
  result : s.resultLegal
  /-- 10_state.md R25. -/
  scan : s.stage = .classify → s.rowIdx ≤ s.numRows
  /-- 40_classifier.md R131. -/
  chosen : rowChosen s.stage = true → s.rowIdx < s.numRows ∧ bandOf (s.rowLen s.rowIdx) = some s.isRetx
  /-- 46_sequencer.md R203. -/
  clean : s.stage = .classify ∨ s.stage = .locate → s.sr = 0 ∧ s.bitPos = 0 ∧ s.symCnt = 0
  /-- 20_memory.md R65, the symbol grid. -/
  grid : s.stage = .manch → s.bitPos = dataStartBit s.isRetx + 2 * s.symCnt
  /-- 42_manchester.md R157, R158. -/
  full : symbolsIn s.stage = true → s.symCnt = 56 ∧ s.bitPos = dataStartBit s.isRetx + 112
  /-- 45_slicer.md R185: a message is published only after the fold was 0. -/
  checked : s.stage = .slice ∨ s.status = .success → foldNibble s.sr = 0

/-- What the registers hold of the rows while an invocation runs (10_state.md R22, 42_manchester.md R153). -/
structure State.Tracks (s : State) : Prop where
  /-- Every row before the scan index, or before the chosen row, is in neither band (40_classifier.md R130). -/
  skipped : s.busy = true → ∀ r < s.rowIdx, bandOf (s.rowLen r) = none
  /-- The chosen row begins with the pattern of its shape (41_locator.md R142). -/
  preamble : patternFound s.stage = true →
    s.chosenRow.take (preambleBitLength s.isRetx) = patternBits s.isRetx
  /-- During MANCH, `SR` holds the bits decoded so far. -/
  decoding : s.stage = .manch → ∃ d, manchesterDecode s.chosenRow (dataStartBit s.isRetx) s.symCnt = (d, s.bitPos) ∧
    d.length = s.symCnt ∧ s.sr = packBits d
  /-- After MANCH, `SR` holds the ScrambledPayload. -/
  scrambled : s.stage = .descr → ∃ d, manchesterDecode s.chosenRow (dataStartBit s.isRetx) 56 = (d, s.bitPos) ∧
    d.length = 56 ∧ s.sr = packBits d
  /-- After DESCR, `SR` holds the PlaintextPayload. -/
  plain : s.stage = .fold ∨ s.stage = .slice →
    ∃ d, manchesterDecode s.chosenRow (dataStartBit s.isRetx) 56 = (d, s.bitPos) ∧
      d.length = 56 ∧ s.sr = descramble (packBits d)

/-- Every row the core sees was loaded since reset: the host's duty, 20_memory.md R67, 92 D25. Nothing below it is a
free value of the row storage (log 4). -/
def State.rowsLoaded (s : State) : Prop :=
  ∀ r < s.numRows, (Memory.read s.rows r).isSome = true

end Sys2Proof.Machine
end

