-- ==== Sys2Proof/Certificates/Slice0/Obligations.lean ====
section
/-! DEFINITION. The statements for the provers, from the numbered rules of spec/. -/

open Sys2Proof Sys2Proof.Machine

/-! ## Reset and the host's commands -/

/-- 10_state.md R41: the value of every piece of state after reset; R40: the five `cfg` numbers, at their nominal values
(log 22). That a row of the unspecified storage reads as `(Config.unspecifiedRow 0 r).take Config.maxRowBits` is the
model's choice: the free value's form is log 4's, and the number 0 is the model's own reset count (log 6). -/
def Obligations.ResetValues : Prop :=
  State.reset.stage = .idle ∧ State.reset.rowIdx = 0 ∧ State.reset.isRetx = false ∧ State.reset.bitPos = 0 ∧
  State.reset.symCnt = 0 ∧ (∀ i < 7, State.reset.p i = 0) ∧ State.reset.status = .none ∧
  State.reset.failStage = 0 ∧ State.reset.msgValid = false ∧ State.reset.busy = false ∧ State.reset.done = false ∧
  State.reset.message = .zero ∧ State.reset.numRows = 0 ∧
  (∀ r, State.reset.rowAt r = (Config.unspecifiedRow 0 r).take Config.maxRowBits) ∧
  State.reset.outputs.cfgShort = 604 ∧ State.reset.outputs.cfgLong = 604 ∧ State.reset.outputs.cfgTol = 20 ∧
  State.reset.outputs.cfgGap = 3000 ∧ State.reset.outputs.cfgReset = 10000

/-- 70_reset_and_hazards.md R260: in any step in which `rst` is driven, whatever the stage and whatever else is driven,
the only effect is the reset of every register; the row storage becomes unspecified, which the model says with a fresh
free value for each reset (log 4). What the host drives in later steps is left as it is (log 1), and the model's own field
`returned` goes back to `nothing` (log 6). -/
def Obligations.ResetWipesEverything : Prop :=
  (∀ (x : Bool) (s : State), exec (.reset x) s =
    .next { State.reset with inputs := s.inputs, resets := s.resets + 1 }) ∧
  ∀ s : State, s.currentInput.rst = true → ∃ t, step s = .next t ∧
    t = { State.reset with inputs := s.inputs.tail, resets := s.resets + 1 } ∧
    t.busy = false ∧ t.done = false ∧ t.message = .zero ∧
    ∀ r, t.rowAt r = (Config.unspecifiedRow (s.resets + 1) r).take Config.maxRowBits

/-- 46_sequencer.md R203, R213: START wipes every core register when `busy = 0` and is ignored when `busy = 1`. -/
def Obligations.StartWipesCoreRegisters : Prop :=
  (∀ s : State, s.busy = false → ∃ t, exec .start s = .next t ∧
    t = { s with stage := .classify, rowIdx := 0, isRetx := false, bitPos := 0, symCnt := 0, sr := 0,
                 status := .none, failStage := 0, msgValid := false } ∧
    (∀ i < 7, t.p i = 0) ∧ t.message = .zero ∧ t.rowSet = s.rowSet) ∧
  ∀ s : State, s.busy = true → exec .start s = .next s

/-- 46_sequencer.md R213: in stages 1 to 6 the step does not depend on `start`. -/
def Obligations.StepIgnoresStartWhileBusy : Prop :=
  ∀ (s : State) (rst : Bool) (w : Option HostWrite) (rest : List HostInput), s.busy = true →
    step { s with inputs := ⟨rst, true, w⟩ :: rest } = step { s with inputs := ⟨rst, false, w⟩ :: rest }

/-- 20_memory.md R73: while `busy = 1` LOADROW and SETNROWS are ignored in their entirety, so the step does not depend on
the write port. -/
def Obligations.StepIgnoresWritesWhileBusy : Prop :=
  (∀ (s : State) (r n : Nat) (bits : Bits), s.busy = true →
    exec (.loadrow r bits) s = .next s ∧ exec (.setnrows n) s = .next s) ∧
  ∀ (s : State) (rst start : Bool) (w : HostWrite) (rest : List HostInput), s.busy = true →
    step { s with inputs := ⟨rst, start, some w⟩ :: rest } = step { s with inputs := ⟨rst, start, none⟩ :: rest }

/-- 46_sequencer.md R203, corner case: a LOADROW and `start` in the same step while `busy = 0` are both accepted, and the
invocation sees the write. -/
def Obligations.StartSeesWriteOfSameStep : Prop :=
  ∀ (s : State) (r : Nat) (bits : Bits) (rest : List HostInput), s.busy = false →
    s.inputs = ⟨false, true, some (.loadRow r bits)⟩ :: rest →
    r < Config.maxRows → bits.length ≤ Config.maxRowBits →
    ∃ t, step s = .next t ∧ t.stage = .classify ∧ t.rowIdx = 0 ∧ t.status = .none ∧ t.msgValid = false ∧
      t.inputs = rest ∧ t.numRows = s.numRows ∧ t.rowAt r = bits ∧ ∀ r', r' ≠ r → t.rowAt r' = s.rowAt r'

/-- 20_memory.md R66: LOADROW writes one row entirely when `busy = 0`, `r < MAX_ROWS` and `len <= MAX_ROW_BITS`, and is
ignored otherwise; it changes nothing else. -/
def Obligations.LoadrowWritesOneRow : Prop :=
  ∀ (r : Nat) (bits : Bits) (s : State),
    (s.busy = false ∧ r < Config.maxRows ∧ bits.length ≤ Config.maxRowBits → ∃ t,
      exec (.loadrow r bits) s = .next t ∧ t = { s with rows := t.rows } ∧
      t.rowLen r = bits.length ∧ (∀ i < bits.length, t.rowBit r i = bits[i]?) ∧
      ∀ r', r' ≠ r → t.rowLen r' = s.rowLen r' ∧ ∀ i, t.rowBit r' i = s.rowBit r' i) ∧
    (¬(s.busy = false ∧ r < Config.maxRows ∧ bits.length ≤ Config.maxRowBits) → exec (.loadrow r bits) s = .next s)

/-- 20_memory.md R72 (b): a later LOADROW of the same row replaces the earlier one entirely, as if the earlier one had not
been issued. -/
def Obligations.LaterLoadrowReplaces : Prop :=
  ∀ (r : Nat) (a b : Bits) (s t u : State), b.length ≤ Config.maxRowBits →
    exec (.loadrow r a) s = .next t → exec (.loadrow r b) t = .next u → exec (.loadrow r b) s = .next u

/-- 20_memory.md R67: SETNROWS writes `num_rows` when `busy = 0` and `n <= MAX_ROWS`, and is ignored otherwise; no row
changes. -/
def Obligations.SetnrowsWritesCount : Prop :=
  ∀ (n : Nat) (s : State),
    (s.busy = false ∧ n ≤ Config.maxRows → ∃ t, exec (.setnrows n) s = .next t ∧ t = { s with numRows := n } ∧
      ∀ r, t.rowAt r = s.rowAt r) ∧
    (¬(s.busy = false ∧ n ≤ Config.maxRows) → exec (.setnrows n) s = .next s)

/-- 46_sequencer.md R203, R218: in IDLE and in DONE, with nothing driven, nothing changes. -/
def Obligations.WaitingStagesHold : Prop :=
  (∀ s : State, exec .idleWait s = .next s) ∧ (∀ s : State, exec .doneHold s = .next s) ∧
  ∀ s : State, s.busy = false → s.currentInput = ⟨false, false, none⟩ →
    step s = .next { s with inputs := s.inputs.tail }

/-- 46_sequencer.md R218: from DONE until the next accepted START or reset no register and no port changes, whatever the
host writes into the row buffer. -/
def Obligations.DoneHoldsResult : Prop :=
  ∀ s : State, s.stage = .done → s.currentInput.rst = false → s.currentInput.start = false → ∃ t, step s = .next t ∧
    t = { s with inputs := s.inputs.tail, rows := t.rows, numRows := t.numRows } ∧ t.outputs = s.outputs

/-! ## The units, one step each -/

/-- 40_classifier.md R131: a CLASSIFY step. -/
def Obligations.ClassifyExaminesOneRow : Prop :=
  ∀ s : State, s.numRows ≤ Config.maxRows →
    (s.numRows ≤ s.rowIdx → exec .classify s =
      .next { s with status := .sanityFailure, failStage := 1, msgValid := false, stage := .done }) ∧
    (s.rowIdx < s.numRows → 170 < s.rowLen s.rowIdx → exec .classify s =
      .next { s with isRetx := true, stage := .locate }) ∧
    (s.rowIdx < s.numRows → s.rowLen s.rowIdx ≤ 170 → 130 < s.rowLen s.rowIdx → exec .classify s =
      .next { s with isRetx := false, stage := .locate }) ∧
    (s.rowIdx < s.numRows → s.rowLen s.rowIdx ≤ 130 → exec .classify s = .next { s with rowIdx := s.rowIdx + 1 })

/-- 40_classifier.md R130: `Classify` is one scan; the first row in either band is chosen, the retransmission band being
tested first on each row. -/
def Obligations.ClassifyTakesFirstRowInBand : Prop :=
  ∀ rows : List Bits,
    (∀ (b : Bool) (r : Nat), classify rows = some (b, r) ↔ ∃ row, rows[r]? = some row ∧
      ((b = true ∧ 170 < row.length) ∨ (b = false ∧ 130 < row.length ∧ row.length ≤ 170)) ∧
      ∀ (k : Nat) (row' : Bits), k < r → rows[k]? = some row' → row'.length ≤ 130) ∧
    (classify rows = none ↔ ∀ row ∈ rows, row.length ≤ 130)

/-- 41_locator.md R140: SEARCH gives the least offset, not below `start`, at which the pattern lies wholly inside the row
bit for bit, or NOT_FOUND; it writes no register of the block (where the value goes is the model's choice, log 10).
A row index outside the buffer is the model's fault for SEARCH and for every other operation that reads a row (log 5); a
row at or above `num_rows` inside the buffer reads as its storage, the model's choice too (log 29). -/
def Obligations.SearchGivesLeastOffset : Prop :=
  (∀ (r st : Nat) (pat : Bits) (s : State), r < Config.maxRows → ∃ o,
    exec (.search r st pat) s = .next { s with returned := .offset o } ∧
    (∀ k, o = some k ↔
      (st ≤ k ∧ k + pat.length ≤ s.rowLen r ∧ ∀ j < pat.length, s.rowBit r (k + j) = pat[j]?) ∧
      ∀ k', st ≤ k' → k' < k → ¬∀ j < pat.length, s.rowBit r (k' + j) = pat[j]?)) ∧
  (∀ (r st : Nat) (pat : Bits) (s : State), Config.maxRows ≤ r → exec (.search r st pat) s = .fault (.noSuchRow r)) ∧
  ∀ s : State, Config.maxRows ≤ s.rowIdx →
    (s.rowIdx < s.numRows → exec .classify s = .fault (.noSuchRow s.rowIdx)) ∧
    exec .locate s = .fault (.noSuchRow s.rowIdx) ∧ exec (.decode .locate) s = .fault (.noSuchRow s.rowIdx) ∧
    (s.symCnt < 56 → exec .msym s = .fault (.noSuchRow s.rowIdx) ∧ exec .manch s = .fault (.noSuchRow s.rowIdx))

/-- 41_locator.md R142: `Search(r, 0, pat, L) == 0` holds exactly when the row has at least `L` bits and its first `L`
bits are the pattern; a row in a band always has at least the `L` bits of its shape; so LOCATE is the one comparison of
the first `L` bits. The clause on LOCATE also speaks of a row with `num_rows <= row_idx < MAX_ROWS`, which the spec does
not: that it reads as its storage is the model's choice (log 29). -/
def Obligations.SearchAtZeroIsPrefixTest : Prop :=
  (∀ (s : State) (r : Nat) (pat : Bits),
    search (s.rowAt r) 0 pat = some 0 ↔ s.memRead r 0 pat.length = some pat) ∧
  (∀ (b : Bool) (row : Bits), bandOf row.length = some b → preambleBitLength b ≤ row.length) ∧
  ∀ s : State, s.rowIdx < Config.maxRows → exec .locate s = .next
    (if s.memRead s.rowIdx 0 (patternBits s.isRetx).length = some (patternBits s.isRetx) then
      { s with bitPos := if s.isRetx then 65 else 25, symCnt := 0, stage := .manch }
    else { s with status := .sanityFailure, failStage := 2, msgValid := false, stage := .done })

/-- 41_locator.md R141: a LOCATE step passes exactly when the pattern of the shape is at offset 0 of the chosen row. That a
row with `num_rows <= row_idx < MAX_ROWS` reads as its storage is the model's choice (log 29). -/
def Obligations.LocateComparesAtOffsetZero : Prop :=
  ∀ s : State, s.rowIdx < Config.maxRows →
    (search (s.rowAt s.rowIdx) 0 (patternBits s.isRetx) = some 0 → exec .locate s =
      .next { s with bitPos := if s.isRetx then 65 else 25, symCnt := 0, stage := .manch }) ∧
    (search (s.rowAt s.rowIdx) 0 (patternBits s.isRetx) ≠ some 0 → exec .locate s =
      .next { s with status := .sanityFailure, failStage := 2, msgValid := false, stage := .done }) ∧
    patternBits false = expand [0xF0, 0xF0, 0xFF] ∧
    patternBits true = expand [0xF0, 0xF0, 0xF0, 0xF0, 0xF0, 0xF0, 0xF0, 0xFF]

/-- 42_manchester.md R150: MSYM decodes one symbol. That a row with `num_rows <= row_idx < MAX_ROWS` reads as its storage is
the model's choice (log 29). -/
def Obligations.MsymDecodesOneSymbol : Prop :=
  ∀ s : State, s.symCnt < 56 → s.rowIdx < Config.maxRows →
    (s.rowLen s.rowIdx < s.bitPos + 2 → exec .msym s =
      .next { s with status := .integrityFailure, failStage := 3, msgValid := false, stage := .done }) ∧
    (∀ a b, s.bitPos + 2 ≤ s.rowLen s.rowIdx → s.rowBit s.rowIdx s.bitPos = some a →
      s.rowBit s.rowIdx (s.bitPos + 1) = some b →
      (a = b → exec .msym s =
        .next { s with status := .integrityFailure, failStage := 3, msgValid := false, stage := .done }) ∧
      (a ≠ b → exec .msym s =
        .next { s with sr := s.sr.extractLsb' 0 55 ++ BitVec.ofBool b, symCnt := s.symCnt + 1, bitPos := s.bitPos + 2 }))

/-- 30_encoding.md R95, 42_manchester.md R150, R156: what each symbol code does where the decoder meets it: 01 is data
bit 1, 10 is data bit 0, 00 and 11 stop the decode; after 56 symbols none does anything, nor does MSYM (the model's choice
where the codes run by themselves, logs 11 and 18). -/
def Obligations.SymbolCodesDecode : Prop :=
  ∀ s : State,
    (s.symCnt < 56 →
      exec .sym1 s =
        .next { s with sr := s.sr.extractLsb' 0 55 ++ 1#1, symCnt := s.symCnt + 1, bitPos := s.bitPos + 2 } ∧
      exec .sym0 s =
        .next { s with sr := s.sr.extractLsb' 0 55 ++ 0#1, symCnt := s.symCnt + 1, bitPos := s.bitPos + 2 } ∧
      exec .symInvalidLow s =
        .next { s with status := .integrityFailure, failStage := 3, msgValid := false, stage := .done } ∧
      exec .symInvalidHigh s =
        .next { s with status := .integrityFailure, failStage := 3, msgValid := false, stage := .done }) ∧
    (56 ≤ s.symCnt → exec .sym1 s = .next s ∧ exec .sym0 s = .next s ∧ exec .symInvalidLow s = .next s ∧
      exec .symInvalidHigh s = .next s ∧ exec .msym s = .next s)

/-- 42_manchester.md R158: a MANCH step leaves when all 56 symbols are in (at a higher count, which no run
reaches, too: log 18) and is one MSYM otherwise. That a row with `num_rows <= row_idx < MAX_ROWS` reads as its storage is
the model's choice (log 29). -/
def Obligations.ManchRunsMsymOrLeaves : Prop :=
  ∀ s : State,
    (56 ≤ s.symCnt → exec .manch s = .next { s with stage := .descr }) ∧
    (s.symCnt < 56 → exec .manch s = exec .msym s) ∧
    (s.symCnt < 56 → s.rowIdx < Config.maxRows → s.bitPos + 2 ≤ s.rowLen s.rowIdx →
      s.rowBit s.rowIdx s.bitPos ≠ s.rowBit s.rowIdx (s.bitPos + 1) → ∃ t, exec .manch s = .next t ∧
        t.stage = s.stage ∧ t.symCnt = s.symCnt + 1 ∧ t.bitPos = s.bitPos + 2)

/-- 42_manchester.md R151, R157: the decoder reads the pairs of the grid from `start`, gives the second half-bit of each,
and stops at the first of: `max` bits decoded, fewer than two bits left, an invalid symbol. -/
def Obligations.ManchesterDecodeReadsGrid : Prop :=
  ∀ (row : Bits) (start max : Nat), ∃ d, manchesterDecode row start max = (d, start + 2 * d.length) ∧
    d.length ≤ max ∧
    (∀ k < d.length, ∃ a b, row[start + 2 * k]? = some a ∧ row[start + 2 * k + 1]? = some b ∧ a ≠ b ∧
      d[k]? = some b) ∧
    (d.length = max ∨ row.length < start + 2 * d.length + 2 ∨
      row[start + 2 * d.length]? = row[start + 2 * d.length + 1]?)

/-- 42_manchester.md R160: MANCH_ENCODE replaces each 1 by 01 and each 0 by 10, and the decoder reads it back (where
the value goes is the model's choice, log 10). -/
def Obligations.ManchEncodeReadsBack : Prop :=
  ∀ (d : Bits) (s : State), ∃ e, exec (.manchEncode d) s = .next { s with returned := .bits e } ∧
    e.length = 2 * d.length ∧ (∀ k b, d[k]? = some b → e[2 * k]? = some (!b) ∧ e[2 * k + 1]? = some b) ∧
    ∀ pre post : Bits, manchesterDecode (pre ++ (e ++ post)) pre.length d.length = (d, pre.length + 2 * d.length)

/-- 30_encoding.md R96: the 56 data bits pack with `SR[55-k] = d[k]`, that is `S[j][7-m] = d[8j+m]`. -/
def Obligations.PackingIsMostSignificantFirst : Prop :=
  ∀ d : Bits, d.length = 56 →
    (∀ k < 56, d[k]? = some ((packBits d).getLsbD (55 - k))) ∧
    ∀ j < 7, ∀ m < 8, d[8 * j + m]? = some ((payloadByte (packBits d) j).getLsbD (7 - m))

/-- 43_descrambler.md R165, R167: DESCR, byte by byte and as the operation on the 56-bit register. -/
def Obligations.DescrXorsPreviousScrambledByte : Prop :=
  ∀ s : State, ∃ t, exec .descr s = .next t ∧ t = { s with sr := t.sr, stage := .fold } ∧
    t.p 0 = s.p 0 ∧ (∀ i < 6, t.p (i + 1) = s.p (i + 1) ^^^ s.p i) ∧ t.sr = s.sr ^^^ (s.sr >>> 8)

/-- 43_descrambler.md R166: overwriting the bytes one at a time from index 6 down to 1 gives the same payload; upward
from 1 to 6 it gives the running XOR of the scrambled bytes instead. -/
def Obligations.DescrambleOrderMatters : Prop :=
  ∀ v : Payload,
    inPlaceXor [6, 5, 4, 3, 2, 1] (payloadBytes v) = payloadBytes (descramble v) ∧
    inPlaceXor [1, 2, 3, 4, 5, 6] (payloadBytes v) = payloadBytes (scramble v)

/-- 43_descrambler.md R168: the bit-serial form: the first eight bits unchanged, every later bit XORed with the bit
eight places before it. -/
def Obligations.DescrambleBitSerial : Prop :=
  ∀ (v : Payload) (k : Nat), k < 56 → (descramble v).getLsbD (55 - k) =
    if k < 8 then v.getLsbD (55 - k) else (v.getLsbD (55 - k) ^^ v.getLsbD (55 - (k - 8)))

/-- 43_descrambler.md R169, R170: SCRAMBLE is the running XOR, and it and the descrambler undo each other (where
the value goes is the model's choice, log 10). -/
def Obligations.ScrambleInvertsDescramble : Prop :=
  (∀ (pt : Payload) (s : State), ∃ v, exec (.scramble pt) s = .next { s with returned := .bytes v } ∧
    payloadByte v 0 = payloadByte pt 0 ∧ (∀ i < 6, payloadByte v (i + 1) = payloadByte pt (i + 1) ^^^ payloadByte v i) ∧
    descramble v = pt) ∧
  (∀ w : Payload, scramble (descramble w) = w)

/-- 44_checksum.md R175, R176: FOLD goes on to SLICE exactly when the nibble fold of the XOR of the seven bytes is 0, and
raises IntegrityFailure otherwise. -/
def Obligations.FoldDecidesOnNibbleSum : Prop :=
  ∀ (s : State) (x : Byte), x = s.p 0 ^^^ s.p 1 ^^^ s.p 2 ^^^ s.p 3 ^^^ s.p 4 ^^^ s.p 5 ^^^ s.p 6 →
    ((x &&& 0x0F#8) ^^^ (x >>> 4) = 0#8 → exec .fold s = .next { s with stage := .slice }) ∧
    ((x &&& 0x0F#8) ^^^ (x >>> 4) ≠ 0#8 → exec .fold s =
      .next { s with status := .integrityFailure, failStage := 5, msgValid := false, stage := .done })

/-- 44_checksum.md R177: bit `j` of the fold is the XOR of the fourteen payload bits at nibble position `j`, taken over
the register or over the bytes; the fold is 0 exactly when its four bits are. -/
def Obligations.FoldIsXorTree : Prop :=
  ∀ v : Payload,
    (∀ j < 4, (foldNibble v).getLsbD j = (List.range 14).foldl (fun acc m => acc ^^ v.getLsbD (4 * m + j)) false ∧
      (foldNibble v).getLsbD j = (List.range 7).foldl
        (fun acc i => acc ^^ ((payloadByte v i).getLsbD j ^^ (payloadByte v i).getLsbD (j + 4))) false) ∧
    (foldNibble v = 0 ↔ ∀ j < 4, (foldNibble v).getLsbD j = false)

/-- 44_checksum.md R178: on a descrambled payload the XOR of the bytes is the last scrambled byte and the fold is the XOR
of its two nibbles. -/
def Obligations.FoldOfDescrambledIsLastByte : Prop :=
  ∀ v : Payload, xorBytes (descramble v) = payloadByte v 6 ∧
    foldNibble (descramble v) = (payloadByte v 6).extractLsb' 0 4 ^^^ (payloadByte v 6).extractLsb' 4 4 ∧
    (foldNibble (descramble v) = 0 ↔ (payloadByte v 6).extractLsb' 0 4 = (payloadByte v 6).extractLsb' 4 4)

/-- 44_checksum.md R179: the fold does not depend on the order of the seven bytes. -/
def Obligations.FoldIgnoresByteOrder : Prop :=
  ∀ (b : Fin 7 → Byte) (σ : Equiv.Perm (Fin 7)),
    foldNibble (ofBytes (b (σ 0)) (b (σ 1)) (b (σ 2)) (b (σ 3)) (b (σ 4)) (b (σ 5)) (b (σ 6))) =
      foldNibble (ofBytes (b 0) (b 1) (b 2) (b 3) (b 4) (b 5) (b 6))

/-- 44_checksum.md R180: an error pattern on a valid payload passes exactly when it flips an even number of bits at each
nibble position. -/
def Obligations.FoldCatchesOddErrors : Prop :=
  ∀ v e : Payload, foldNibble v = 0 →
    (foldNibble (v ^^^ e) = 0 ↔ ∀ j < 4, Even ((List.range 14).countP (fun m => e.getLsbD (4 * m + j))))

/-- 45_slicer.md R185: SLICE publishes the message and cannot fail; whenever `msg_valid = 1` the ports are the fields of the
payload; the message stays on the ports until the next START or reset. -/
def Obligations.SlicePublishesMessage : Prop :=
  (∀ s : State, exec .slice s =
    .next { s with msgValid := true, status := .success, failStage := 0, stage := .done }) ∧
  (∀ s : State, s.msgValid = true →
    s.outputs.outSeed = s.p 0 ∧ s.outputs.outControl = (s.p 1).extractLsb' 4 4 ∧
    s.outputs.outChecksumNibble = (s.p 1).extractLsb' 0 4 ∧ s.outputs.outCounter = s.p 2 ++ s.p 3 ∧
    s.outputs.outAddressBytes = s.p 4 ++ s.p 5 ++ s.p 6 ∧ s.outputs.outAddressId = s.p 6 ++ s.p 5 ++ s.p 4 ∧
    s.outputs.outAddressHex = hexUp ((s.p 4).extractLsb' 4 4) ++ hexUp ((s.p 4).extractLsb' 0 4) ++
      hexUp ((s.p 5).extractLsb' 4 4) ++ hexUp ((s.p 5).extractLsb' 0 4) ++
      hexUp ((s.p 6).extractLsb' 4 4) ++ hexUp ((s.p 6).extractLsb' 0 4) ∧ s.outputs.outIsRetx = s.isRetx) ∧
  ∀ s : State, s.stage = .done → s.currentInput.rst = false → s.currentInput.start = false → ∃ t, step s = .next t ∧
    t.outputs = s.outputs

/-- 45_slicer.md R191: HEXUP gives the ASCII character of a nibble, upper case; run by itself it writes no register (the
model's choice of where the character goes, log 10). -/
def Obligations.HexupGivesAsciiDigit : Prop :=
  ∀ (n : Nibble) (s : State), ∃ c, exec (.hexup n) s = .next { s with returned := .character c } ∧
    (n.toNat ≤ 9 → c.toNat = 0x30 + n.toNat) ∧ (10 ≤ n.toNat → c.toNat = 0x41 + (n.toNat - 10))

/-- 30_encoding.md R97, R98: the fields of a payload and the values assembled from them; run by itself the row writes no
register (the model's choice, log 15). -/
def Obligations.PayloadFieldsAssemble : Prop :=
  ∀ (seed : Byte) (control checksum : Nibble) (counter : BitVec 16) (address : BitVec 24) (s : State), ∃ m,
    exec (.payload seed control checksum counter address) s = .next { s with returned := .message m } ∧
    m.seed = seed ∧ m.control = control ∧ m.checksumNibble = checksum ∧ m.counter = counter ∧
    m.addressBytes = address ∧
    m.addressId = address.extractLsb' 0 8 ++ address.extractLsb' 8 8 ++ address.extractLsb' 16 8 ∧
    (∀ k < 6, m.addressHex.extractLsb' (8 * k) 8 = hexUp (address.extractLsb' (4 * k) 4)) ∧
    m.isRetransmission = s.isRetx

/-- 60_exceptions.md R231 to R234, R236: each cause is the failure action with its own code pair: `status`, `fail_stage`,
`msg_valid` and `stage` are written and nothing else. That a cause run by itself takes the action in any stage is the
model's choice (log 13). -/
def Obligations.CausesTakeFailureAction : Prop :=
  ∀ s : State,
    exec .noRowInBand s =
      .next { s with status := .sanityFailure, failStage := 1, msgValid := false, stage := .done } ∧
    exec .preambleNotAt0 s =
      .next { s with status := .sanityFailure, failStage := 2, msgValid := false, stage := .done } ∧
    exec .shortManchester s =
      .next { s with status := .integrityFailure, failStage := 3, msgValid := false, stage := .done } ∧
    exec .checksumNonzero s =
      .next { s with status := .integrityFailure, failStage := 5, msgValid := false, stage := .done } ∧
    Status.code .sanityFailure = 2 ∧ Status.code .integrityFailure = 3

/-- 10_state.md R29, 60_exceptions.md R235, R236: the status codes run by themselves are the model's choice (log 12): each
is written in the stages whose operation writes it and leaves the state alone elsewhere. -/
def Obligations.StatusCodesAreWrittenWhereTheyArise : Prop :=
  ∀ s : State,
    (s.stage ≠ .done → exec .statusNone s = .next { s with status := .none, failStage := 0, msgValid := false }) ∧
    (s.stage = .done → exec .statusNone s = .next s) ∧
    (s.stage = .slice → exec .statusSuccess s =
      .next { s with status := .success, failStage := 0, msgValid := true, stage := .done }) ∧
    (s.stage ≠ .slice → exec .statusSuccess s = .next s) ∧
    (s.stage = .classify ∨ s.stage = .locate → exec .statusSanityFailure s =
      .next { s with status := .sanityFailure, failStage := s.stage.code, msgValid := false, stage := .done }) ∧
    (s.stage ≠ .classify → s.stage ≠ .locate → exec .statusSanityFailure s = .next s) ∧
    (s.stage = .manch ∨ s.stage = .fold → exec .statusIntegrityFailure s =
      .next { s with status := .integrityFailure, failStage := s.stage.code, msgValid := false, stage := .done }) ∧
    (s.stage ≠ .manch → s.stage ≠ .fold → exec .statusIntegrityFailure s = .next s)

/-- 30_encoding.md R101, R102, 45_slicer.md R194: every control code is passed through unchanged, never fails and writes no
register; the six labels the source fixes are as given, and an unknown code's label contains "?". Where the code and
its label go is the model's choice (log 14). -/
def Obligations.ControlCodesPassThrough : Prop :=
  (∀ (k : Nat) (i : Instr), [Instr.ctrl0, .ctrl1, .ctrl2, .ctrl3, .ctrl4, .ctrl5, .ctrl6, .ctrl7, .ctrl8, .ctrl9, .ctrl10,
      .ctrl11, .ctrl12, .ctrl13, .ctrl14, .ctrl15][k]? = some i →
    ∀ s : State, exec i s =
      .next { s with returned := .control (BitVec.ofNat 4 k) (ctrlLabel (BitVec.ofNat 4 k)) }) ∧
  ctrlLabel 1 = "My" ∧ ctrlLabel 2 = "Up" ∧ ctrlLabel 4 = "Down" ∧ ctrlLabel 8 = "Prog" ∧ ctrlLabel 9 = "Sun+Flag" ∧
  ctrlLabel 10 = "Flag" ∧
  ∀ c ∈ [0, 7, 11, 12, 13, 14, 15], ∃ a b : String, ctrlLabel c = a ++ "?" ++ b

/-! ## Ports and the record -/

/-- 45_slicer.md R197: while `msg_valid = 0` every message port reads zero. -/
def Obligations.PortsZeroWithoutMessage : Prop :=
  ∀ s : State, s.msgValid = false →
    s.outputs.outSeed = 0 ∧ s.outputs.outControl = 0 ∧ s.outputs.outChecksumNibble = 0 ∧ s.outputs.outCounter = 0 ∧
    s.outputs.outAddressBytes = 0 ∧ s.outputs.outAddressHex = 0 ∧ s.outputs.outAddressId = 0 ∧
    s.outputs.outIsRetx = false

/-- 45_slicer.md R193, R195, R196: the record the reporting layer builds from the ports of a success, none after a
failure, and the order of its default display. The record is outside the block (log 28); ten of its labels are open (log 21);
the statement says nothing of the text forms in the display (log 31). -/
def Obligations.HostRecordFromPorts : Prop :=
  (∀ s : State, s.status ≠ .success → s.hostRecord = none) ∧
  (∀ s : State, s.status = .success → s.msgValid = true → ∃ r, s.hostRecord = some r ∧
    r.model = "Somfy-RTS" ∧ r.id = s.outputs.outAddressId.toNat ∧ r.control = ctrlLabel s.outputs.outControl ∧
    r.counter = s.outputs.outCounter.toNat ∧ r.address = hexString s.outputs.outAddressHex ∧
    r.retransmission = (if s.outputs.outIsRetx then "TRUE" else "FALSE") ∧ r.mic = "CHECKSUM" ∧
    r.display.map Prod.fst = ["model", "control", "counter", "address", "retransmission"])

/-! ## The decode as a whole -/

/-- 46_sequencer.md R200, R214: DECODE from stage code 001 ends in DONE with the ports that encode `Decode(B)`, and the row
buffer is unchanged. That it acts whatever the stage register holds is the model's choice (log 32). -/
def Obligations.DecodeRunRefinesFunction : Prop :=
  ∀ s : State, s.numRows ≤ Config.maxRows → ∃ t, exec (.decode .classify) s = .next t ∧
    t.stage = .done ∧ t.outputs = (decodeRows s.rowSet).ports ∧ t.rows = s.rows ∧ t.numRows = s.numRows ∧
    t.inputs = s.inputs ∧ t.resets = s.resets ∧ t.returned = s.returned

/-- 46_sequencer.md R204, 30_encoding.md R105: DECODE at any later stage code runs the rest of the stages to DONE and leaves
the row buffer alone (log 17), whatever the stage register holds (the model's choice, log 32). -/
def Obligations.DecodeEndsInDone : Prop :=
  ∀ (c : Stage) (s : State), c.runs = true → s.rowIdx < Config.maxRows → s.numRows ≤ Config.maxRows →
    ∃ t, exec (.decode c) s = .next t ∧ t.stage = .done ∧ t.rows = s.rows ∧ t.numRows = s.numRows ∧
      t.inputs = s.inputs ∧ t.resets = s.resets ∧ t.returned = s.returned

/-- 46_sequencer.md R214: a START accepted by a good state leads, while no reset is driven and whatever else the host
drives, to DONE with the row buffer unchanged and ports that encode `Decode` of it; until then `busy = 1` and every
message port is zero. -/
def Obligations.InvocationRefinesFunction : Prop :=
  ∀ s : State, s.Inv → s.busy = false → s.currentInput.start = true → (∀ i ∈ s.inputs, i.rst = false) →
    ∃ s1, step s = .next s1 ∧ s1.stage = .classify ∧ ∃ k t, Host.Core.run Sys2Proof.core k s1 = .next t ∧
      t.stage = .done ∧ t.rowSet = s1.rowSet ∧ t.outputs = (decodeRows s1.rowSet).ports ∧
      ∀ j < k, ∃ u, Host.Core.run Sys2Proof.core j s1 = .next u ∧ u.busy = true ∧ u.message = .zero

/-- 46_sequencer.md R219: two invocations on equal row buffers give equal results, whatever their registers held. That
DECODE acts whatever the stage register holds is the model's choice (log 32). -/
def Obligations.EqualBuffersEqualResults : Prop :=
  ∀ s s' : State, s.numRows ≤ Config.maxRows → s.rowSet = s'.rowSet → ∃ t t',
    exec (.decode .classify) s = .next t ∧ exec (.decode .classify) s' = .next t' ∧ t.outputs = t'.outputs

/-- 20_memory.md R67, 92 D25: where every row below `num_rows` was loaded since reset, the rows the core sees are the
loaded ones; no free value of the row storage is among them, however many resets there have been. -/
def Obligations.LoadedRowsLeaveNothingFree : Prop :=
  ∀ s s' : State, s.rowsLoaded → s'.numRows = s.numRows → s'.rows = s.rows → s'.rowSet = s.rowSet

/-- 30_encoding.md R92, 42_manchester.md R156: the result does not depend on the unexamined bit nor on any bit after the
56th symbol. -/
def Obligations.UnexaminedBitsDoNotMatter : Prop :=
  ∀ (retx : Bool) (row row' : Bits), row.length = row'.length →
    (∀ i, i < preambleBitLength retx → row[i]? = row'[i]?) →
    (∀ i, dataStartBit retx ≤ i → i < dataStartBit retx + 112 → row[i]? = row'[i]?) →
    bandOf row.length = some retx → decodeRows [row] = decodeRows [row']

/-- 42_manchester.md R154: a row with fewer than `data_start_bit + 112` bits never succeeds. -/
def Obligations.ShortRowNeverSucceeds : Prop :=
  ∀ (retx : Bool) (row : Bits), bandOf row.length = some retx → row.length < dataStartBit retx + 112 →
    decodeRows [row] = .sanityFailure .preambleNotAt0 ∨ decodeRows [row] = .integrityFailure .shortManchester

/-- 42_manchester.md R155: one flipped bit in the data field of a row whose 56 symbols are valid is always caught as
SHORT_MANCHESTER. -/
def Obligations.SingleBitErrorCaught : Prop :=
  ∀ (retx : Bool) (row : Bits) (i : Nat) (b : Bool), bandOf row.length = some retx →
    row.take (preambleBitLength retx) = patternBits retx →
    (manchesterDecode row (dataStartBit retx) 56).1.length = 56 →
    dataStartBit retx ≤ i → i < dataStartBit retx + 112 → row[i]? = some b →
    decodeRows [row.set i (!b)] = .integrityFailure .shortManchester

/-- 60_exceptions.md R239: the failure reported is the one the earliest stage detects: no row in band before a bad pattern
before a short decode before a nonzero fold. -/
def Obligations.EarliestFailureReported : Prop :=
  ∀ rows : List Bits,
    (classify rows = none → decodeRows rows = .sanityFailure .noRowInBand) ∧
    ∀ (retx : Bool) (r : Nat) (row : Bits), classify rows = some (retx, r) → rows[r]? = some row →
      (row.take (preambleBitLength retx) ≠ patternBits retx → decodeRows rows = .sanityFailure .preambleNotAt0) ∧
      (row.take (preambleBitLength retx) = patternBits retx →
        ∀ d e, manchesterDecode row (dataStartBit retx) 56 = (d, e) →
        (d.length < 56 → decodeRows rows = .integrityFailure .shortManchester) ∧
        (d.length = 56 → foldNibble (descramble (packBits d)) ≠ 0 →
          decodeRows rows = .integrityFailure .checksumNonzero) ∧
        (d.length = 56 → foldNibble (descramble (packBits d)) = 0 →
          decodeRows rows = .success (messageOf (descramble (packBits d)) retx)))

/-- 30_encoding.md R90, R91, 46_sequencer.md R200: a frame whose 56 symbols carry the scrambled payload `v` succeeds with
the fields of the descrambled payload exactly when the fold is 0, whatever the unexamined bit and the trailing bits.
That the frame runs as the capture of one row is the model's choice (log 16). -/
def Obligations.FramesDecodeTheirPayload : Prop :=
  (∀ (v : Payload) (x : Bool) (m : BitVec 112) (t : Bits) (s : State), s.busy = false →
    bitsMsb 112 m.toNat = manchEncode (bitsMsb 56 v.toNat) → t.length ≤ 33 →
    ∃ u, exec (.frameFirst x m t) s = .next u ∧ u.stage = .done ∧
      (foldNibble (descramble v) = 0 → u.outputs = (Result.success (messageOf (descramble v) false)).ports) ∧
      (foldNibble (descramble v) ≠ 0 → u.outputs = (Result.integrityFailure .checksumNonzero).ports)) ∧
  (∀ (v : Payload) (x : Bool) (m : BitVec 112) (t : Bits) (s : State), s.busy = false →
    bitsMsb 112 m.toNat = manchEncode (bitsMsb 56 v.toNat) → 177 + t.length ≤ Config.maxRowBits →
    ∃ u, exec (.frameRetx x m t) s = .next u ∧ u.stage = .done ∧
      (foldNibble (descramble v) = 0 → u.outputs = (Result.success (messageOf (descramble v) true)).ports) ∧
      (foldNibble (descramble v) ≠ 0 → u.outputs = (Result.integrityFailure .checksumNonzero).ports))

/-- 30_encoding.md R90: every well-formed frame runs to DONE with the result of decoding that one row, and while
`busy = 1` it changes nothing (log 16). -/
def Obligations.FramesRunToDone : Prop :=
  ∀ (retx x : Bool) (m : BitVec 112) (t : Bits) (s : State),
    (if retx then Instr.frameRetx x m t else Instr.frameFirst x m t).wellFormed = true →
    (s.busy = false → ∃ u, exec (if retx then .frameRetx x m t else .frameFirst x m t) s = .next u ∧
      u.stage = .done ∧ u.numRows = 1 ∧ u.rowAt 0 = frameBits retx x m t ∧
      (∀ r, r ≠ 0 → u.rowAt r = s.rowAt r) ∧ u.outputs = (decodeRows [frameBits retx x m t]).ports) ∧
    (s.busy = true → exec (if retx then .frameRetx x m t else .frameFirst x m t) s = .next s)

/-! ## Invariants of every step -/

/-- The good states: reset is one (10_state.md R41). -/
def Obligations.ResetIsGood : Prop := State.reset.Inv ∧ State.reset.Tracks

/-- 10_state.md R25 to R31, 60_exceptions.md R235: every step keeps the legal values of the registers. -/
def Obligations.StepKeepsLegalRegisters : Prop :=
  ∀ s t : State, s.Inv → step s = .next t → t.Inv

/-- 10_state.md R22, 42_manchester.md R153: every step keeps what the registers hold of the rows. -/
def Obligations.StepKeepsPayloadTracking : Prop :=
  ∀ s t : State, s.Inv → s.Tracks → step s = .next t → t.Tracks

/-- 46_sequencer.md R204: from a good state the step always has a next state: the machine is never stuck, and no read goes
outside the row buffer (20_memory.md R68; the model's fault for such a read, log 5, is never raised). -/
def Obligations.GoodStateNeverStops : Prop :=
  ∀ s : State, s.Inv → ∃ t, step s = .next t

/-- 20_memory.md R72 (c): during an invocation the row buffer is constant: a step of a busy block without reset leaves
every row and the count as they were. -/
def Obligations.RowBufferConstantWhileBusy : Prop :=
  ∀ s t : State, s.busy = true → s.currentInput.rst = false → step s = .next t →
    t.rows = s.rows ∧ t.numRows = s.numRows ∧ t.resets = s.resets ∧ (∀ r, t.rowAt r = s.rowAt r)

/-- 70_reset_and_hazards.md R269: in a good state every message port is zero and the status is NONE while `busy = 1`. -/
def Obligations.NoResultWhileBusy : Prop :=
  ∀ s t : State, s.Inv → step s = .next t → t.busy = true →
    t.outputs.status = 0 ∧ t.outputs.failStage = 0 ∧ t.outputs.msgValid = false ∧ t.message = .zero

/-! ## Encodings and the fetch -/

/-- Decoding the encoding of a well-formed instruction gives it back, for every row of the opcode table. -/
def Obligations.DecodeOfEncode : Prop :=
  ∀ i : Instr, i.wellFormed = true → decode (encode i) = .ok i

/-- Every code word the decoder accepts is the encoding of a well-formed instruction: no two code words mean the same. -/
def Obligations.EncodeOfDecode : Prop :=
  ∀ (w : CodeWord) (i : Instr), decode w = .ok i → i.wellFormed = true ∧ encode i = w

/-- Some code words of spec/opcode_table.json, written out, decode to their rows. -/
def Obligations.TableWordsDecode : Prop :=
  decode ⟨.stage, [false, true, true], .none⟩ = .ok .manch ∧
  decode ⟨.hostIn, [true, false], .none⟩ = .ok (.reset false) ∧
  decode ⟨.hostIn, [true, true], .none⟩ = .ok (.reset true) ∧
  decode ⟨.hostIn, [false, true], .none⟩ = .ok .start ∧
  decode ⟨.primitive, [false, true, true], .none⟩ = .ok .msym ∧
  decode ⟨.msymbol, [false, true], .none⟩ = .ok .sym1 ∧
  decode ⟨.status, [true, false], .none⟩ = .ok .statusSanityFailure ∧
  decode ⟨.cause, [true, true, false, true, true], .none⟩ = .ok .shortManchester ∧
  decode ⟨.control, [true, false, false, true], .none⟩ = .ok .ctrl9 ∧
  decodeTableWord 56 0x5A2C0123ABCDEF = some (.payload 0x5A 0x2 0xC 0x0123 0xABCDEF)

/-- 46_sequencer.md R201, R202: the step runs what the decoder reads: RESET alone when `rst` is driven; otherwise the host
write, then START, then the operation the decoder reads from the stage code, each at the state the one before leaves,
and the inputs of the step are taken off first (the order within the step and the list of inputs are the model's
choices, logs 24 and 1). -/
def Obligations.StepRunsDecodedOperations : Prop :=
  ∀ (s : State) (i : Instr),
    (∀ x, s.currentInput.rst = true → s.currentInput.start = x →
      decode ⟨.hostIn, [true, x], .none⟩ = .ok i → step s = exec i s.popInput) ∧
    (s.currentInput = ⟨false, false, none⟩ →
      decode ⟨.stage, bitsMsb 3 s.stage.code.toNat, .none⟩ = .ok i → step s = exec i s.popInput) ∧
    (∀ h, s.currentInput = ⟨false, true, none⟩ → decode ⟨.hostIn, [false, true], .none⟩ = .ok h →
      decode ⟨.stage, bitsMsb 3 s.stage.code.toNat, .none⟩ = .ok i →
      step s = andThen (exec h s.popInput) (exec i)) ∧
    (∀ w, s.currentInput = ⟨false, false, some w⟩ →
      decode ⟨.stage, bitsMsb 3 s.stage.code.toNat, .none⟩ = .ok i →
      step s = andThen (exec w.instr s.popInput) (exec i)) ∧
    (∀ w h, s.currentInput = ⟨false, true, some w⟩ → decode ⟨.hostIn, [false, true], .none⟩ = .ok h →
      decode ⟨.stage, bitsMsb 3 s.stage.code.toNat, .none⟩ = .ok i →
      step s = andThen (exec w.instr s.popInput) (fun u => andThen (exec h u) (exec i)))
end

