-- ==== Sys2Proof/Laws/State.lean ====
section
/-! SUPPORT. One lemma per field per named update of the state, true by rfl, for simp: no later proof unfolds a record
update. -/

namespace Sys2Proof.Machine

variable (s : State)

@[simp] theorem State.raise_stage (f : Failure) (a : Stage) : (s.raise f a).stage = .done := rfl
@[simp] theorem State.raise_rowIdx (f : Failure) (a : Stage) : (s.raise f a).rowIdx = s.rowIdx := rfl
@[simp] theorem State.raise_isRetx (f : Failure) (a : Stage) : (s.raise f a).isRetx = s.isRetx := rfl
@[simp] theorem State.raise_bitPos (f : Failure) (a : Stage) : (s.raise f a).bitPos = s.bitPos := rfl
@[simp] theorem State.raise_symCnt (f : Failure) (a : Stage) : (s.raise f a).symCnt = s.symCnt := rfl
@[simp] theorem State.raise_sr (f : Failure) (a : Stage) : (s.raise f a).sr = s.sr := rfl
@[simp] theorem State.raise_status (f : Failure) (a : Stage) : (s.raise f a).status = f.status := rfl
@[simp] theorem State.raise_failStage (f : Failure) (a : Stage) : (s.raise f a).failStage = a.code := rfl
@[simp] theorem State.raise_msgValid (f : Failure) (a : Stage) : (s.raise f a).msgValid = false := rfl
@[simp] theorem State.raise_numRows (f : Failure) (a : Stage) : (s.raise f a).numRows = s.numRows := rfl
@[simp] theorem State.raise_rows (f : Failure) (a : Stage) : (s.raise f a).rows = s.rows := rfl
@[simp] theorem State.raise_inputs (f : Failure) (a : Stage) : (s.raise f a).inputs = s.inputs := rfl
@[simp] theorem State.raise_resets (f : Failure) (a : Stage) : (s.raise f a).resets = s.resets := rfl
@[simp] theorem State.raise_returned (f : Failure) (a : Stage) : (s.raise f a).returned = s.returned := rfl

@[simp] theorem State.raiseCause_stage (c : Cause) : (s.raiseCause c).stage = .done := rfl
@[simp] theorem State.raiseCause_rowIdx (c : Cause) : (s.raiseCause c).rowIdx = s.rowIdx := rfl
@[simp] theorem State.raiseCause_isRetx (c : Cause) : (s.raiseCause c).isRetx = s.isRetx := rfl
@[simp] theorem State.raiseCause_bitPos (c : Cause) : (s.raiseCause c).bitPos = s.bitPos := rfl
@[simp] theorem State.raiseCause_symCnt (c : Cause) : (s.raiseCause c).symCnt = s.symCnt := rfl
@[simp] theorem State.raiseCause_sr (c : Cause) : (s.raiseCause c).sr = s.sr := rfl
@[simp] theorem State.raiseCause_status (c : Cause) : (s.raiseCause c).status = c.failure.status := rfl
@[simp] theorem State.raiseCause_failStage (c : Cause) : (s.raiseCause c).failStage = c.stage.code := rfl
@[simp] theorem State.raiseCause_msgValid (c : Cause) : (s.raiseCause c).msgValid = false := rfl
@[simp] theorem State.raiseCause_numRows (c : Cause) : (s.raiseCause c).numRows = s.numRows := rfl
@[simp] theorem State.raiseCause_rows (c : Cause) : (s.raiseCause c).rows = s.rows := rfl
@[simp] theorem State.raiseCause_inputs (c : Cause) : (s.raiseCause c).inputs = s.inputs := rfl
@[simp] theorem State.raiseCause_resets (c : Cause) : (s.raiseCause c).resets = s.resets := rfl
@[simp] theorem State.raiseCause_returned (c : Cause) : (s.raiseCause c).returned = s.returned := rfl

@[simp] theorem State.startClear_stage : (s.startClear).stage = .classify := rfl
@[simp] theorem State.startClear_rowIdx : (s.startClear).rowIdx = 0 := rfl
@[simp] theorem State.startClear_isRetx : (s.startClear).isRetx = false := rfl
@[simp] theorem State.startClear_bitPos : (s.startClear).bitPos = 0 := rfl
@[simp] theorem State.startClear_symCnt : (s.startClear).symCnt = 0 := rfl
@[simp] theorem State.startClear_sr : (s.startClear).sr = 0 := rfl
@[simp] theorem State.startClear_status : (s.startClear).status = .none := rfl
@[simp] theorem State.startClear_failStage : (s.startClear).failStage = 0 := rfl
@[simp] theorem State.startClear_msgValid : (s.startClear).msgValid = false := rfl
@[simp] theorem State.startClear_numRows : (s.startClear).numRows = s.numRows := rfl
@[simp] theorem State.startClear_rows : (s.startClear).rows = s.rows := rfl
@[simp] theorem State.startClear_inputs : (s.startClear).inputs = s.inputs := rfl
@[simp] theorem State.startClear_resets : (s.startClear).resets = s.resets := rfl
@[simp] theorem State.startClear_returned : (s.startClear).returned = s.returned := rfl

@[simp] theorem State.resetAll_stage : (s.resetAll).stage = .idle := rfl
@[simp] theorem State.resetAll_rowIdx : (s.resetAll).rowIdx = 0 := rfl
@[simp] theorem State.resetAll_isRetx : (s.resetAll).isRetx = false := rfl
@[simp] theorem State.resetAll_bitPos : (s.resetAll).bitPos = 0 := rfl
@[simp] theorem State.resetAll_symCnt : (s.resetAll).symCnt = 0 := rfl
@[simp] theorem State.resetAll_sr : (s.resetAll).sr = 0 := rfl
@[simp] theorem State.resetAll_status : (s.resetAll).status = .none := rfl
@[simp] theorem State.resetAll_failStage : (s.resetAll).failStage = 0 := rfl
@[simp] theorem State.resetAll_msgValid : (s.resetAll).msgValid = false := rfl
@[simp] theorem State.resetAll_numRows : (s.resetAll).numRows = 0 := rfl
@[simp] theorem State.resetAll_rows : (s.resetAll).rows = [] := rfl
@[simp] theorem State.resetAll_inputs : (s.resetAll).inputs = s.inputs := rfl
@[simp] theorem State.resetAll_resets : (s.resetAll).resets = s.resets + 1 := rfl
@[simp] theorem State.resetAll_returned : (s.resetAll).returned = .nothing := rfl

@[simp] theorem State.writeRow_stage (r : Nat) (bits : Bits) : (s.writeRow r bits).stage = s.stage := rfl
@[simp] theorem State.writeRow_rowIdx (r : Nat) (bits : Bits) : (s.writeRow r bits).rowIdx = s.rowIdx := rfl
@[simp] theorem State.writeRow_isRetx (r : Nat) (bits : Bits) : (s.writeRow r bits).isRetx = s.isRetx := rfl
@[simp] theorem State.writeRow_bitPos (r : Nat) (bits : Bits) : (s.writeRow r bits).bitPos = s.bitPos := rfl
@[simp] theorem State.writeRow_symCnt (r : Nat) (bits : Bits) : (s.writeRow r bits).symCnt = s.symCnt := rfl
@[simp] theorem State.writeRow_sr (r : Nat) (bits : Bits) : (s.writeRow r bits).sr = s.sr := rfl
@[simp] theorem State.writeRow_status (r : Nat) (bits : Bits) : (s.writeRow r bits).status = s.status := rfl
@[simp] theorem State.writeRow_failStage (r : Nat) (bits : Bits) : (s.writeRow r bits).failStage = s.failStage := rfl
@[simp] theorem State.writeRow_msgValid (r : Nat) (bits : Bits) : (s.writeRow r bits).msgValid = s.msgValid := rfl
@[simp] theorem State.writeRow_numRows (r : Nat) (bits : Bits) : (s.writeRow r bits).numRows = s.numRows := rfl
@[simp] theorem State.writeRow_rows (r : Nat) (bits : Bits) : (s.writeRow r bits).rows = Memory.write s.rows r bits := rfl
@[simp] theorem State.writeRow_inputs (r : Nat) (bits : Bits) : (s.writeRow r bits).inputs = s.inputs := rfl
@[simp] theorem State.writeRow_resets (r : Nat) (bits : Bits) : (s.writeRow r bits).resets = s.resets := rfl
@[simp] theorem State.writeRow_returned (r : Nat) (bits : Bits) : (s.writeRow r bits).returned = s.returned := rfl

@[simp] theorem State.writeNumRows_stage (n : Nat) : (s.writeNumRows n).stage = s.stage := rfl
@[simp] theorem State.writeNumRows_rowIdx (n : Nat) : (s.writeNumRows n).rowIdx = s.rowIdx := rfl
@[simp] theorem State.writeNumRows_isRetx (n : Nat) : (s.writeNumRows n).isRetx = s.isRetx := rfl
@[simp] theorem State.writeNumRows_bitPos (n : Nat) : (s.writeNumRows n).bitPos = s.bitPos := rfl
@[simp] theorem State.writeNumRows_symCnt (n : Nat) : (s.writeNumRows n).symCnt = s.symCnt := rfl
@[simp] theorem State.writeNumRows_sr (n : Nat) : (s.writeNumRows n).sr = s.sr := rfl
@[simp] theorem State.writeNumRows_status (n : Nat) : (s.writeNumRows n).status = s.status := rfl
@[simp] theorem State.writeNumRows_failStage (n : Nat) : (s.writeNumRows n).failStage = s.failStage := rfl
@[simp] theorem State.writeNumRows_msgValid (n : Nat) : (s.writeNumRows n).msgValid = s.msgValid := rfl
@[simp] theorem State.writeNumRows_numRows (n : Nat) : (s.writeNumRows n).numRows = n := rfl
@[simp] theorem State.writeNumRows_rows (n : Nat) : (s.writeNumRows n).rows = s.rows := rfl
@[simp] theorem State.writeNumRows_inputs (n : Nat) : (s.writeNumRows n).inputs = s.inputs := rfl
@[simp] theorem State.writeNumRows_resets (n : Nat) : (s.writeNumRows n).resets = s.resets := rfl
@[simp] theorem State.writeNumRows_returned (n : Nat) : (s.writeNumRows n).returned = s.returned := rfl

@[simp] theorem State.popInput_stage : (s.popInput).stage = s.stage := rfl
@[simp] theorem State.popInput_rowIdx : (s.popInput).rowIdx = s.rowIdx := rfl
@[simp] theorem State.popInput_isRetx : (s.popInput).isRetx = s.isRetx := rfl
@[simp] theorem State.popInput_bitPos : (s.popInput).bitPos = s.bitPos := rfl
@[simp] theorem State.popInput_symCnt : (s.popInput).symCnt = s.symCnt := rfl
@[simp] theorem State.popInput_sr : (s.popInput).sr = s.sr := rfl
@[simp] theorem State.popInput_status : (s.popInput).status = s.status := rfl
@[simp] theorem State.popInput_failStage : (s.popInput).failStage = s.failStage := rfl
@[simp] theorem State.popInput_msgValid : (s.popInput).msgValid = s.msgValid := rfl
@[simp] theorem State.popInput_numRows : (s.popInput).numRows = s.numRows := rfl
@[simp] theorem State.popInput_rows : (s.popInput).rows = s.rows := rfl
@[simp] theorem State.popInput_inputs : (s.popInput).inputs = s.inputs.tail := rfl
@[simp] theorem State.popInput_resets : (s.popInput).resets = s.resets := rfl
@[simp] theorem State.popInput_returned : (s.popInput).returned = s.returned := rfl

@[simp] theorem State.chooseRow_stage (b : Bool) : (s.chooseRow b).stage = .locate := rfl
@[simp] theorem State.chooseRow_rowIdx (b : Bool) : (s.chooseRow b).rowIdx = s.rowIdx := rfl
@[simp] theorem State.chooseRow_isRetx (b : Bool) : (s.chooseRow b).isRetx = b := rfl
@[simp] theorem State.chooseRow_bitPos (b : Bool) : (s.chooseRow b).bitPos = s.bitPos := rfl
@[simp] theorem State.chooseRow_symCnt (b : Bool) : (s.chooseRow b).symCnt = s.symCnt := rfl
@[simp] theorem State.chooseRow_sr (b : Bool) : (s.chooseRow b).sr = s.sr := rfl
@[simp] theorem State.chooseRow_status (b : Bool) : (s.chooseRow b).status = s.status := rfl
@[simp] theorem State.chooseRow_failStage (b : Bool) : (s.chooseRow b).failStage = s.failStage := rfl
@[simp] theorem State.chooseRow_msgValid (b : Bool) : (s.chooseRow b).msgValid = s.msgValid := rfl
@[simp] theorem State.chooseRow_numRows (b : Bool) : (s.chooseRow b).numRows = s.numRows := rfl
@[simp] theorem State.chooseRow_rows (b : Bool) : (s.chooseRow b).rows = s.rows := rfl
@[simp] theorem State.chooseRow_inputs (b : Bool) : (s.chooseRow b).inputs = s.inputs := rfl
@[simp] theorem State.chooseRow_resets (b : Bool) : (s.chooseRow b).resets = s.resets := rfl
@[simp] theorem State.chooseRow_returned (b : Bool) : (s.chooseRow b).returned = s.returned := rfl

@[simp] theorem State.skipRow_stage : (s.skipRow).stage = s.stage := rfl
@[simp] theorem State.skipRow_rowIdx : (s.skipRow).rowIdx = s.rowIdx + 1 := rfl
@[simp] theorem State.skipRow_isRetx : (s.skipRow).isRetx = s.isRetx := rfl
@[simp] theorem State.skipRow_bitPos : (s.skipRow).bitPos = s.bitPos := rfl
@[simp] theorem State.skipRow_symCnt : (s.skipRow).symCnt = s.symCnt := rfl
@[simp] theorem State.skipRow_sr : (s.skipRow).sr = s.sr := rfl
@[simp] theorem State.skipRow_status : (s.skipRow).status = s.status := rfl
@[simp] theorem State.skipRow_failStage : (s.skipRow).failStage = s.failStage := rfl
@[simp] theorem State.skipRow_msgValid : (s.skipRow).msgValid = s.msgValid := rfl
@[simp] theorem State.skipRow_numRows : (s.skipRow).numRows = s.numRows := rfl
@[simp] theorem State.skipRow_rows : (s.skipRow).rows = s.rows := rfl
@[simp] theorem State.skipRow_inputs : (s.skipRow).inputs = s.inputs := rfl
@[simp] theorem State.skipRow_resets : (s.skipRow).resets = s.resets := rfl
@[simp] theorem State.skipRow_returned : (s.skipRow).returned = s.returned := rfl

@[simp] theorem State.located_stage : (s.located).stage = .manch := rfl
@[simp] theorem State.located_rowIdx : (s.located).rowIdx = s.rowIdx := rfl
@[simp] theorem State.located_isRetx : (s.located).isRetx = s.isRetx := rfl
@[simp] theorem State.located_bitPos : (s.located).bitPos = dataStartBit s.isRetx := rfl
@[simp] theorem State.located_symCnt : (s.located).symCnt = 0 := rfl
@[simp] theorem State.located_sr : (s.located).sr = s.sr := rfl
@[simp] theorem State.located_status : (s.located).status = s.status := rfl
@[simp] theorem State.located_failStage : (s.located).failStage = s.failStage := rfl
@[simp] theorem State.located_msgValid : (s.located).msgValid = s.msgValid := rfl
@[simp] theorem State.located_numRows : (s.located).numRows = s.numRows := rfl
@[simp] theorem State.located_rows : (s.located).rows = s.rows := rfl
@[simp] theorem State.located_inputs : (s.located).inputs = s.inputs := rfl
@[simp] theorem State.located_resets : (s.located).resets = s.resets := rfl
@[simp] theorem State.located_returned : (s.located).returned = s.returned := rfl

@[simp] theorem State.acceptBit_stage (b : Bool) : (s.acceptBit b).stage = s.stage := rfl
@[simp] theorem State.acceptBit_rowIdx (b : Bool) : (s.acceptBit b).rowIdx = s.rowIdx := rfl
@[simp] theorem State.acceptBit_isRetx (b : Bool) : (s.acceptBit b).isRetx = s.isRetx := rfl
@[simp] theorem State.acceptBit_bitPos (b : Bool) : (s.acceptBit b).bitPos = s.bitPos + 2 := rfl
@[simp] theorem State.acceptBit_symCnt (b : Bool) : (s.acceptBit b).symCnt = s.symCnt + 1 := rfl
@[simp] theorem State.acceptBit_sr (b : Bool) : (s.acceptBit b).sr = shiftIn s.sr b := rfl
@[simp] theorem State.acceptBit_status (b : Bool) : (s.acceptBit b).status = s.status := rfl
@[simp] theorem State.acceptBit_failStage (b : Bool) : (s.acceptBit b).failStage = s.failStage := rfl
@[simp] theorem State.acceptBit_msgValid (b : Bool) : (s.acceptBit b).msgValid = s.msgValid := rfl
@[simp] theorem State.acceptBit_numRows (b : Bool) : (s.acceptBit b).numRows = s.numRows := rfl
@[simp] theorem State.acceptBit_rows (b : Bool) : (s.acceptBit b).rows = s.rows := rfl
@[simp] theorem State.acceptBit_inputs (b : Bool) : (s.acceptBit b).inputs = s.inputs := rfl
@[simp] theorem State.acceptBit_resets (b : Bool) : (s.acceptBit b).resets = s.resets := rfl
@[simp] theorem State.acceptBit_returned (b : Bool) : (s.acceptBit b).returned = s.returned := rfl

@[simp] theorem State.goto_stage (st : Stage) : (s.goto st).stage = st := rfl
@[simp] theorem State.goto_rowIdx (st : Stage) : (s.goto st).rowIdx = s.rowIdx := rfl
@[simp] theorem State.goto_isRetx (st : Stage) : (s.goto st).isRetx = s.isRetx := rfl
@[simp] theorem State.goto_bitPos (st : Stage) : (s.goto st).bitPos = s.bitPos := rfl
@[simp] theorem State.goto_symCnt (st : Stage) : (s.goto st).symCnt = s.symCnt := rfl
@[simp] theorem State.goto_sr (st : Stage) : (s.goto st).sr = s.sr := rfl
@[simp] theorem State.goto_status (st : Stage) : (s.goto st).status = s.status := rfl
@[simp] theorem State.goto_failStage (st : Stage) : (s.goto st).failStage = s.failStage := rfl
@[simp] theorem State.goto_msgValid (st : Stage) : (s.goto st).msgValid = s.msgValid := rfl
@[simp] theorem State.goto_numRows (st : Stage) : (s.goto st).numRows = s.numRows := rfl
@[simp] theorem State.goto_rows (st : Stage) : (s.goto st).rows = s.rows := rfl
@[simp] theorem State.goto_inputs (st : Stage) : (s.goto st).inputs = s.inputs := rfl
@[simp] theorem State.goto_resets (st : Stage) : (s.goto st).resets = s.resets := rfl
@[simp] theorem State.goto_returned (st : Stage) : (s.goto st).returned = s.returned := rfl

@[simp] theorem State.setPayload_stage (v : Payload) : (s.setPayload v).stage = s.stage := rfl
@[simp] theorem State.setPayload_rowIdx (v : Payload) : (s.setPayload v).rowIdx = s.rowIdx := rfl
@[simp] theorem State.setPayload_isRetx (v : Payload) : (s.setPayload v).isRetx = s.isRetx := rfl
@[simp] theorem State.setPayload_bitPos (v : Payload) : (s.setPayload v).bitPos = s.bitPos := rfl
@[simp] theorem State.setPayload_symCnt (v : Payload) : (s.setPayload v).symCnt = s.symCnt := rfl
@[simp] theorem State.setPayload_sr (v : Payload) : (s.setPayload v).sr = v := rfl
@[simp] theorem State.setPayload_status (v : Payload) : (s.setPayload v).status = s.status := rfl
@[simp] theorem State.setPayload_failStage (v : Payload) : (s.setPayload v).failStage = s.failStage := rfl
@[simp] theorem State.setPayload_msgValid (v : Payload) : (s.setPayload v).msgValid = s.msgValid := rfl
@[simp] theorem State.setPayload_numRows (v : Payload) : (s.setPayload v).numRows = s.numRows := rfl
@[simp] theorem State.setPayload_rows (v : Payload) : (s.setPayload v).rows = s.rows := rfl
@[simp] theorem State.setPayload_inputs (v : Payload) : (s.setPayload v).inputs = s.inputs := rfl
@[simp] theorem State.setPayload_resets (v : Payload) : (s.setPayload v).resets = s.resets := rfl
@[simp] theorem State.setPayload_returned (v : Payload) : (s.setPayload v).returned = s.returned := rfl

@[simp] theorem State.publish_stage : (s.publish).stage = .done := rfl
@[simp] theorem State.publish_rowIdx : (s.publish).rowIdx = s.rowIdx := rfl
@[simp] theorem State.publish_isRetx : (s.publish).isRetx = s.isRetx := rfl
@[simp] theorem State.publish_bitPos : (s.publish).bitPos = s.bitPos := rfl
@[simp] theorem State.publish_symCnt : (s.publish).symCnt = s.symCnt := rfl
@[simp] theorem State.publish_sr : (s.publish).sr = s.sr := rfl
@[simp] theorem State.publish_status : (s.publish).status = .success := rfl
@[simp] theorem State.publish_failStage : (s.publish).failStage = 0 := rfl
@[simp] theorem State.publish_msgValid : (s.publish).msgValid = true := rfl
@[simp] theorem State.publish_numRows : (s.publish).numRows = s.numRows := rfl
@[simp] theorem State.publish_rows : (s.publish).rows = s.rows := rfl
@[simp] theorem State.publish_inputs : (s.publish).inputs = s.inputs := rfl
@[simp] theorem State.publish_resets : (s.publish).resets = s.resets := rfl
@[simp] theorem State.publish_returned : (s.publish).returned = s.returned := rfl

@[simp] theorem State.clearResult_stage : (s.clearResult).stage = s.stage := rfl
@[simp] theorem State.clearResult_rowIdx : (s.clearResult).rowIdx = s.rowIdx := rfl
@[simp] theorem State.clearResult_isRetx : (s.clearResult).isRetx = s.isRetx := rfl
@[simp] theorem State.clearResult_bitPos : (s.clearResult).bitPos = s.bitPos := rfl
@[simp] theorem State.clearResult_symCnt : (s.clearResult).symCnt = s.symCnt := rfl
@[simp] theorem State.clearResult_sr : (s.clearResult).sr = s.sr := rfl
@[simp] theorem State.clearResult_status : (s.clearResult).status = .none := rfl
@[simp] theorem State.clearResult_failStage : (s.clearResult).failStage = 0 := rfl
@[simp] theorem State.clearResult_msgValid : (s.clearResult).msgValid = false := rfl
@[simp] theorem State.clearResult_numRows : (s.clearResult).numRows = s.numRows := rfl
@[simp] theorem State.clearResult_rows : (s.clearResult).rows = s.rows := rfl
@[simp] theorem State.clearResult_inputs : (s.clearResult).inputs = s.inputs := rfl
@[simp] theorem State.clearResult_resets : (s.clearResult).resets = s.resets := rfl
@[simp] theorem State.clearResult_returned : (s.clearResult).returned = s.returned := rfl

@[simp] theorem State.giving_stage (v : Returned) : (s.giving v).stage = s.stage := rfl
@[simp] theorem State.giving_rowIdx (v : Returned) : (s.giving v).rowIdx = s.rowIdx := rfl
@[simp] theorem State.giving_isRetx (v : Returned) : (s.giving v).isRetx = s.isRetx := rfl
@[simp] theorem State.giving_bitPos (v : Returned) : (s.giving v).bitPos = s.bitPos := rfl
@[simp] theorem State.giving_symCnt (v : Returned) : (s.giving v).symCnt = s.symCnt := rfl
@[simp] theorem State.giving_sr (v : Returned) : (s.giving v).sr = s.sr := rfl
@[simp] theorem State.giving_status (v : Returned) : (s.giving v).status = s.status := rfl
@[simp] theorem State.giving_failStage (v : Returned) : (s.giving v).failStage = s.failStage := rfl
@[simp] theorem State.giving_msgValid (v : Returned) : (s.giving v).msgValid = s.msgValid := rfl
@[simp] theorem State.giving_numRows (v : Returned) : (s.giving v).numRows = s.numRows := rfl
@[simp] theorem State.giving_rows (v : Returned) : (s.giving v).rows = s.rows := rfl
@[simp] theorem State.giving_inputs (v : Returned) : (s.giving v).inputs = s.inputs := rfl
@[simp] theorem State.giving_resets (v : Returned) : (s.giving v).resets = s.resets := rfl
@[simp] theorem State.giving_returned (v : Returned) : (s.giving v).returned = v := rfl

end Sys2Proof.Machine
end

