-- ==== Sys2Proof/Laws/Memory.lean ====
section
/-! SUPPORT. The row buffer: read after write, the canonical form, and what a row reads as after each update. -/

namespace Sys2Proof.Machine

/-! ## Read after write -/

@[simp] theorem Memory.read_write_same (m : Memory) (r : Nat) (bits : Bits) :
    Memory.read (Memory.write m r bits) r = some bits := by
  induction m with
  | nil => simp [Memory.write, Memory.read]
  | cons e m ih =>
    obtain ⟨k, v⟩ := e
    simp only [Memory.write]
    split
    · simp [Memory.read]
    · split
      · simp [Memory.read]
      · rename_i h; simp [Memory.read, Ne.symm h, ih]

theorem Memory.read_write_other (m : Memory) {r r' : Nat} (bits : Bits) (h : r' ≠ r) :
    Memory.read (Memory.write m r bits) r' = Memory.read m r' := by
  induction m with
  | nil => simp [Memory.write, Memory.read, Ne.symm h]
  | cons e m ih =>
    obtain ⟨k, v⟩ := e
    simp only [Memory.write]
    split
    · simp [Memory.read, Ne.symm h]
    · split
      · rename_i hk; subst hk; simp [Memory.read, Ne.symm h]
      · simp [Memory.read, ih]

/-! ## The canonical form -/

theorem Memory.wf_iff (m : Memory) : Memory.wf m = true ↔
    (m.map Prod.fst).Pairwise (· < ·) ∧ ∀ e ∈ m, e.1 < Config.maxRows ∧ e.2.length ≤ Config.maxRowBits := by
  simp [Memory.wf]

theorem Memory.mem_write {m : Memory} {r : Nat} {bits : Bits} {e : Nat × Bits} (h : e ∈ Memory.write m r bits) :
    e = (r, bits) ∨ e ∈ m := by
  induction m with
  | nil => simp [Memory.write] at h; exact .inl h
  | cons c m ih =>
    obtain ⟨k, v⟩ := c
    simp only [Memory.write] at h
    split at h
    · simpa using h
    · split at h
      · rcases List.mem_cons.1 h with h | h
        · exact .inl h
        · exact .inr (List.mem_cons_of_mem _ h)
      · rcases List.mem_cons.1 h with h | h
        · exact .inr (by simp [h])
        · exact (ih h).imp_right (List.mem_cons_of_mem _)

theorem Memory.wf_write {m : Memory} {r : Nat} {bits : Bits} (hm : Memory.wf m = true)
    (hr : r < Config.maxRows) (hb : bits.length ≤ Config.maxRowBits) : Memory.wf (Memory.write m r bits) = true := by
  rw [Memory.wf_iff] at hm ⊢
  obtain ⟨hs, hall⟩ := hm
  refine ⟨?_, fun e he => ?_⟩
  · clear hall
    induction m with
    | nil => simp [Memory.write]
    | cons c m ih =>
      obtain ⟨k, v⟩ := c
      simp only [List.map_cons, List.pairwise_cons] at hs
      simp only [Memory.write]
      split
      · rename_i hk
        simp only [List.map_cons, List.pairwise_cons]
        refine ⟨fun a ha => ?_, hs⟩
        rcases List.mem_cons.1 ha with rfl | ha
        · exact hk
        · exact lt_trans hk (hs.1 a ha)
      · split
        · rename_i hk; subst hk
          simpa using hs
        · rename_i h1 h2
          simp only [List.map_cons, List.pairwise_cons]
          refine ⟨fun a ha => ?_, ih hs.2⟩
          obtain ⟨e, he, rfl⟩ := List.mem_map.1 ha
          rcases Memory.mem_write he with rfl | he
          · show k < r
            omega
          · exact hs.1 _ (List.mem_map_of_mem he)
  · rcases Memory.mem_write he with rfl | he
    · exact ⟨hr, hb⟩
    · exact hall e he

theorem Memory.wf_nil : Memory.wf [] = true := by simp [Memory.wf]

theorem reset_memory_wf : Memory.wf State.reset.rows = true := Memory.wf_nil

theorem Memory.length_of_read {m : Memory} {r : Nat} {bits : Bits} (hm : Memory.wf m = true)
    (h : Memory.read m r = some bits) : bits.length ≤ Config.maxRowBits := by
  rw [Memory.wf_iff] at hm
  obtain ⟨-, hall⟩ := hm
  induction m with
  | nil => simp [Memory.read] at h
  | cons c m ih =>
    obtain ⟨k, v⟩ := c
    simp only [Memory.read] at h
    split at h
    · cases h; exact (hall _ List.mem_cons_self).2
    · exact ih h (fun e he => hall e (List.mem_cons_of_mem _ he))

/-! ## Rows -/

/-- A row depends on nothing but the loaded rows and the count of resets. -/
theorem State.rowAt_congr {s t : State} (hr : t.rows = s.rows) (hn : t.resets = s.resets) (r : Nat) :
    t.rowAt r = s.rowAt r := by
  simp [State.rowAt, hr, hn]

theorem State.rowSet_congr {s t : State} (hr : t.rows = s.rows) (hn : t.resets = s.resets)
    (hc : t.numRows = s.numRows) : t.rowSet = s.rowSet := by
  have h : t.rowAt = s.rowAt := funext (State.rowAt_congr hr hn)
  simp [State.rowSet, h, hc]

@[simp] theorem State.rowAt_writeRow_same (r : Nat) (bits : Bits) (s : State) :
    (s.writeRow r bits).rowAt r = bits := by
  simp [State.rowAt]

theorem State.rowAt_writeRow_other {r r' : Nat} (bits : Bits) (s : State) (h : r' ≠ r) :
    (s.writeRow r bits).rowAt r' = s.rowAt r' := by
  simp [State.rowAt, Memory.read_write_other _ _ h]

@[simp] theorem State.rowSet_length (s : State) : s.rowSet.length = s.numRows := by
  simp [State.rowSet]

theorem State.rowSet_get {s : State} {r : Nat} (h : r < s.numRows) : s.rowSet[r]? = some (s.rowAt r) := by
  simp [State.rowSet, h]

/-- No row is longer than MAX_ROW_BITS (20_memory.md R60). -/
theorem State.rowLen_le {s : State} (h : Memory.wf s.rows = true) (r : Nat) : s.rowLen r ≤ Config.maxRowBits := by
  unfold State.rowLen State.rowAt
  split
  · exact Memory.length_of_read h ‹_›
  · simp

theorem State.readRow_eq {s : State} {r : Nat} (h : r < Config.maxRows) : s.readRow r = some (s.rowAt r) := by
  simp [State.readRow, h]

/-! ## Updates that leave the rows alone -/

@[simp] theorem State.rowAt_popInput (s : State) : s.popInput.rowAt = s.rowAt := rfl
@[simp] theorem State.rowAt_startClear (s : State) : s.startClear.rowAt = s.rowAt := rfl
@[simp] theorem State.rowAt_raiseCause (c : Cause) (s : State) : (s.raiseCause c).rowAt = s.rowAt := rfl
@[simp] theorem State.rowAt_chooseRow (b : Bool) (s : State) : (s.chooseRow b).rowAt = s.rowAt := rfl
@[simp] theorem State.rowAt_skipRow (s : State) : s.skipRow.rowAt = s.rowAt := rfl
@[simp] theorem State.rowAt_located (s : State) : s.located.rowAt = s.rowAt := rfl
@[simp] theorem State.rowAt_acceptBit (b : Bool) (s : State) : (s.acceptBit b).rowAt = s.rowAt := rfl
@[simp] theorem State.rowAt_goto (st : Stage) (s : State) : (s.goto st).rowAt = s.rowAt := rfl
@[simp] theorem State.rowAt_setPayload (v : Payload) (s : State) : (s.setPayload v).rowAt = s.rowAt := rfl
@[simp] theorem State.rowAt_publish (s : State) : s.publish.rowAt = s.rowAt := rfl
@[simp] theorem State.rowAt_writeNumRows (n : Nat) (s : State) : (s.writeNumRows n).rowAt = s.rowAt := rfl

end Sys2Proof.Machine
end

