-- ==== Sys2Proof/Laws/Ops.lean ====
section
/-! SUPPORT. What each shared operation can do, said once: sequencing, reading a row, the band, the search, the symbols,
and the host's gated writes. -/

namespace Sys2Proof.Machine

/-! ## Sequencing and reading -/

@[simp] theorem andThen_next (s : State) (f : State → Host.Outcome State Fault Refusal) :
    andThen (.next s) f = f s := rfl

/-- `andThen` answers a next state only through a next state. -/
theorem andThen_eq_next {o : Host.Outcome State Fault Refusal} {f : State → Host.Outcome State Fault Refusal} {t : State}
    (h : andThen o f = .next t) : ∃ u, o = .next u ∧ f u = .next t := by
  cases o with
  | next u => exact ⟨u, rfl, h⟩
  | fault r => cases h
  | refused r => cases h

theorem withRow_next {s : State} {r : Nat} (f : Bits → State → State) (h : r < Config.maxRows) :
    withRow r f s = .next (f (s.rowAt r) s) := by
  simp [withRow, State.readRow_eq h]

/-- All `withRow` can do. -/
theorem withRow_cases (r : Nat) (f : Bits → State → State) (s : State) :
    (r < Config.maxRows ∧ withRow r f s = .next (f (s.rowAt r) s)) ∨
    (Config.maxRows ≤ r ∧ withRow r f s = .fault (.noSuchRow r)) := by
  by_cases h : r < Config.maxRows
  · exact .inl ⟨h, withRow_next f h⟩
  · exact .inr ⟨by omega, by simp [withRow, State.readRow, h]⟩

theorem withRow_eq_next {r : Nat} {f : Bits → State → State} {s t : State} (h : withRow r f s = .next t) :
    r < Config.maxRows ∧ t = f (s.rowAt r) s := by
  rcases withRow_cases r f s with ⟨hr, e⟩ | ⟨-, e⟩ <;> rw [e] at h <;> cases h
  exact ⟨hr, rfl⟩

/-! ## The band of a row length -/

theorem bandOf_eq_true {n : Nat} : bandOf n = some true ↔ 170 < n := by
  unfold bandOf Config.thRetx Config.thFirst
  split
  · simp [*]
  · split <;> simp <;> omega

theorem bandOf_eq_false {n : Nat} : bandOf n = some false ↔ 130 < n ∧ n ≤ 170 := by
  unfold bandOf Config.thRetx Config.thFirst
  split
  · simp; omega
  · split <;> simp <;> omega

theorem bandOf_eq_none {n : Nat} : bandOf n = none ↔ n ≤ 130 := by
  unfold bandOf Config.thRetx Config.thFirst
  split
  · simp; omega
  · split <;> simp <;> omega

/-- The pattern of each shape has `preamble_bit_length` bits. -/
theorem patternBits_length (b : Bool) : (patternBits b).length = preambleBitLength b := by
  cases b <;> decide

/-- A row in a band holds at least the pattern of its shape (41_locator.md R142). -/
theorem preamble_le_of_band {n : Nat} {b : Bool} (h : bandOf n = some b) : preambleBitLength b ≤ n := by
  cases b
  · have := bandOf_eq_false.1 h
    simp only [preambleBitLength, Config.plFirst, Config.plRetx]; simp; omega
  · have := bandOf_eq_true.1 h
    simp only [preambleBitLength, Config.plFirst, Config.plRetx]; simp; omega

/-! ## The search -/

theorem matchesAt_iff {row pat : Bits} {o : Nat} :
    matchesAt row pat o = true ↔ o + pat.length ≤ row.length ∧ (row.drop o).take pat.length = pat := by
  simp [matchesAt]

/-- All `searchFrom` can answer: the least matching offset in its range, or nothing where none matches. -/
theorem searchFrom_spec (row pat : Bits) (n o : Nat) :
    (∃ k, searchFrom row pat n o = some k ∧ o ≤ k ∧ k < o + n ∧ matchesAt row pat k = true ∧
      ∀ j, o ≤ j → j < k → matchesAt row pat j = false) ∨
    (searchFrom row pat n o = none ∧ ∀ j, o ≤ j → j < o + n → matchesAt row pat j = false) := by
  induction n generalizing o with
  | zero => exact .inr ⟨rfl, fun j _ _ => by omega⟩
  | succ n ih =>
    by_cases hm : matchesAt row pat o = true
    · exact .inl ⟨o, by simp [searchFrom, hm], le_rfl, by omega, hm, fun j _ _ => by omega⟩
    · have hf : matchesAt row pat o = false := by simpa using hm
      have hs : searchFrom row pat (n + 1) o = searchFrom row pat n (o + 1) := by simp [searchFrom, hf]
      rcases ih (o + 1) with ⟨k, hk, h1, h2, h3, h4⟩ | ⟨hk, h4⟩
      · refine .inl ⟨k, hs.trans hk, by omega, by omega, h3, fun j hj hjk => ?_⟩
        rcases Nat.eq_or_lt_of_le hj with rfl | hj
        · exact hf
        · exact h4 j hj hjk
      · refine .inr ⟨hs.trans hk, fun j hj hjn => ?_⟩
        rcases Nat.eq_or_lt_of_le hj with rfl | hj
        · exact hf
        · exact h4 j hj (by omega)

/-! ## Symbols -/

theorem Symbol.dataBit_ofPair (a b : Bool) : (Symbol.ofPair a b).dataBit = if a = b then none else some b := by
  cases a <;> cases b <;> rfl

/-- All `symbolAt` can answer: the pair at the cursor when both half-bits are inside the row. -/
theorem symbolAt_cases (row : Bits) (pos : Nat) :
    (∃ a b, pos + 2 ≤ row.length ∧ row[pos]? = some a ∧ row[pos + 1]? = some b ∧
      symbolAt row pos = some (.ofPair a b)) ∨
    (row.length < pos + 2 ∧ symbolAt row pos = none) := by
  by_cases h : pos + 2 ≤ row.length
  · have h0 : pos < row.length := by omega
    have h1 : pos + 1 < row.length := by omega
    exact .inl ⟨row[pos], row[pos + 1], h, by simp [h0], by simp [h1], by simp [symbolAt, h0, h1]⟩
  · refine .inr ⟨by omega, ?_⟩
    have : row[pos + 1]? = none := by simp; omega
    unfold symbolAt
    rw [this]
    cases row[pos]? <;> rfl

/-- All a symbol can do. -/
theorem State.takeSymbol_cases (y : Symbol) (s : State) :
    (56 ≤ s.symCnt ∧ s.takeSymbol y = s) ∨
    (s.symCnt < 56 ∧ ∃ b, y.dataBit = some b ∧ s.takeSymbol y = s.acceptBit b) ∨
    (s.symCnt < 56 ∧ y.dataBit = none ∧ s.takeSymbol y = s.raiseCause .shortManchester) := by
  unfold State.takeSymbol Config.nSym
  by_cases h : 56 ≤ s.symCnt
  · exact .inl ⟨h, by simp [h]⟩
  · refine .inr ?_
    cases hy : y.dataBit with
    | none => exact .inr ⟨by omega, rfl, by simp [h]⟩
    | some b => exact .inl ⟨by omega, b, rfl, by simp [h]⟩

/-- All MSYM can do with the bits of the chosen row while fewer than 56 symbols are in. -/
theorem State.msymOn_cases (row : Bits) {s : State} (h : s.symCnt < 56) :
    (∃ b, (symbolAt row s.bitPos).bind Symbol.dataBit = some b ∧ s.msymOn row = s.acceptBit b) ∨
    ((symbolAt row s.bitPos).bind Symbol.dataBit = none ∧ s.msymOn row = s.raiseCause .shortManchester) := by
  unfold State.msymOn
  cases hy : symbolAt row s.bitPos with
  | none => exact .inr ⟨rfl, rfl⟩
  | some y =>
    rcases State.takeSymbol_cases y s with ⟨h56, -⟩ | ⟨-, b, hb, e⟩ | ⟨-, hb, e⟩
    · omega
    · exact .inl ⟨b, by simpa using hb, e⟩
    · exact .inr ⟨by simpa using hb, e⟩

/-! ## The Manchester decoder -/

@[simp] theorem manchesterDecode_zero (row : Bits) (pos : Nat) : manchesterDecode row pos 0 = ([], pos) := rfl

theorem manchesterDecode_none {row : Bits} {pos : Nat} (n : Nat)
    (h : (symbolAt row pos).bind Symbol.dataBit = none) : manchesterDecode row pos n = ([], pos) := by
  cases n with
  | zero => rfl
  | succ n => simp [manchesterDecode, h]

theorem manchesterDecode_some {row : Bits} {pos : Nat} {b : Bool} (n : Nat)
    (h : (symbolAt row pos).bind Symbol.dataBit = some b) :
    manchesterDecode row pos (n + 1) =
      (b :: (manchesterDecode row (pos + 2) n).1, (manchesterDecode row (pos + 2) n).2) := by
  simp [manchesterDecode, h]

/-- Decoding never gives more bits than asked for. -/
theorem manchesterDecode_length_le (row : Bits) (pos n : Nat) : (manchesterDecode row pos n).1.length ≤ n := by
  induction n generalizing pos with
  | zero => simp
  | succ n ih =>
    cases h : (symbolAt row pos).bind Symbol.dataBit with
    | none => simp [manchesterDecode_none _ h]
    | some b => simpa [manchesterDecode_some _ h] using ih (pos + 2)

/-- The end offset is the index of the first bit not consumed (42_manchester.md R157). -/
theorem manchesterDecode_end (row : Bits) (pos n : Nat) :
    (manchesterDecode row pos n).2 = pos + 2 * (manchesterDecode row pos n).1.length := by
  induction n generalizing pos with
  | zero => simp
  | succ n ih =>
    cases h : (symbolAt row pos).bind Symbol.dataBit with
    | none => simp [manchesterDecode_none _ h]
    | some b => simp [manchesterDecode_some _ h, ih (pos + 2)]; omega

/-- A full decode of `n` symbols goes on with the next symbol where it stopped. -/
theorem manchesterDecode_succ {row : Bits} {pos n e : Nat} {d : Bits}
    (h : manchesterDecode row pos n = (d, e)) (hd : d.length = n) :
    manchesterDecode row pos (n + 1) =
      match (symbolAt row e).bind Symbol.dataBit with
      | some b => (d ++ [b], e + 2)
      | none => (d, e) := by
  induction n generalizing pos d with
  | zero =>
    cases h
    cases hs : (symbolAt row e).bind Symbol.dataBit with
    | none => simp [manchesterDecode_none _ hs]
    | some b => simp [manchesterDecode_some _ hs]
  | succ n ih =>
    cases hs : (symbolAt row pos).bind Symbol.dataBit with
    | none =>
      rw [manchesterDecode_none _ hs] at h
      cases h
      simp at hd
    | some b =>
      rw [manchesterDecode_some _ hs] at h
      cases hr : manchesterDecode row (pos + 2) n with
      | mk d' e' =>
        rw [hr] at h
        cases h
        rw [manchesterDecode_some _ hs, ih hr (by simpa using hd)]
        cases (symbolAt row e').bind Symbol.dataBit <;> rfl

theorem packBits_append (d : Bits) (b : Bool) : packBits (d ++ [b]) = shiftIn (packBits d) b := by
  simp [packBits]

@[simp] theorem packBits_nil : packBits [] = 0 := rfl

/-! ## The host's gated writes -/

/-- All LOADROW can do (20_memory.md R66). -/
theorem State.loadRow_cases (r : Nat) (bits : Bits) (s : State) :
    (s.busy = false ∧ r < Config.maxRows ∧ bits.length ≤ Config.maxRowBits ∧ s.loadRow r bits = s.writeRow r bits) ∨
    s.loadRow r bits = s := by
  unfold State.loadRow
  split
  · rename_i h; exact .inl ⟨h.1, h.2.1, h.2.2, rfl⟩
  · exact .inr rfl

/-- All SETNROWS can do (20_memory.md R67). -/
theorem State.setNumRows_cases (n : Nat) (s : State) :
    (s.busy = false ∧ n ≤ Config.maxRows ∧ s.setNumRows n = s.writeNumRows n) ∨ s.setNumRows n = s := by
  unfold State.setNumRows
  split
  · rename_i h; exact .inl ⟨h.1, h.2, rfl⟩
  · exact .inr rfl

theorem State.loadRow_busy {s : State} (r : Nat) (bits : Bits) (h : s.busy = true) : s.loadRow r bits = s := by
  simp [State.loadRow, h]

theorem State.setNumRows_busy {s : State} (n : Nat) (h : s.busy = true) : s.setNumRows n = s := by
  simp [State.setNumRows, h]

theorem State.acceptStart_busy {s : State} (h : s.busy = true) : s.acceptStart = s := by
  simp [State.acceptStart, h]

theorem State.acceptStart_free {s : State} (h : s.busy = false) : s.acceptStart = s.startClear := by
  simp [State.acceptStart, h]

/-! ## The stages -/

theorem busy_eq_true {s : State} : s.busy = true ↔ s.stage ≠ .idle ∧ s.stage ≠ .done := by
  simp [State.busy, bne_iff_ne]

theorem busy_eq_false {s : State} : s.busy = false ↔ s.stage = .idle ∨ s.stage = .done := by
  cases h : s.stage <;> simp [State.busy, h]

/-- The operation of the stage code is the stage's step. -/
theorem exec_stageInstr (s : State) : exec (stageInstr s.stage) s = stageStep s := by
  cases h : s.stage <;> simp [stageInstr, stageStep, exec, h] <;> rfl

end Sys2Proof.Machine
end

