-- ==== Sys2Proof/Laws/Payload.lean ====
section
/-! SUPPORT. The payload registers: bytes of the shift register and the shift register of bytes (10_state.md R21). -/

namespace Sys2Proof.Machine

/-- Which bit of which byte each bit of SR is (10_state.md R21). -/
theorem ofBytes_getLsbD (p0 p1 p2 p3 p4 p5 p6 : Byte) (i : Nat) : (ofBytes p0 p1 p2 p3 p4 p5 p6).getLsbD i =
    if i < 8 then p6.getLsbD i else if i < 16 then p5.getLsbD (i - 8) else if i < 24 then p4.getLsbD (i - 16)
    else if i < 32 then p3.getLsbD (i - 24) else if i < 40 then p2.getLsbD (i - 32)
    else if i < 48 then p1.getLsbD (i - 40) else p0.getLsbD (i - 48) := by
  simp only [ofBytes, BitVec.getLsbD_append]
  split
  · rfl
  · repeat' (first | rfl | (split <;> try omega))

theorem payloadByte_getLsbD (v : Payload) (i j : Nat) :
    (payloadByte v i).getLsbD j = (decide (j < 8) && v.getLsbD (8 * (6 - i) + j)) := by
  simp [payloadByte, BitVec.getLsbD_extractLsb']

theorem payloadByte_ofBytes (p0 p1 p2 p3 p4 p5 p6 : Byte) :
    payloadByte (ofBytes p0 p1 p2 p3 p4 p5 p6) 0 = p0 ∧ payloadByte (ofBytes p0 p1 p2 p3 p4 p5 p6) 1 = p1 ∧
    payloadByte (ofBytes p0 p1 p2 p3 p4 p5 p6) 2 = p2 ∧ payloadByte (ofBytes p0 p1 p2 p3 p4 p5 p6) 3 = p3 ∧
    payloadByte (ofBytes p0 p1 p2 p3 p4 p5 p6) 4 = p4 ∧ payloadByte (ofBytes p0 p1 p2 p3 p4 p5 p6) 5 = p5 ∧
    payloadByte (ofBytes p0 p1 p2 p3 p4 p5 p6) 6 = p6 := by
  refine ⟨?_, ?_, ?_, ?_, ?_, ?_, ?_⟩ <;>
  · apply BitVec.eq_of_getLsbD_eq
    intro i hi
    rw [payloadByte_getLsbD, ofBytes_getLsbD]
    simp [hi]
    repeat' (split <;> try omega)
    all_goals rfl

section
variable (p0 p1 p2 p3 p4 p5 p6 : Byte)
@[simp] theorem payloadByte_ofBytes_0 : payloadByte (ofBytes p0 p1 p2 p3 p4 p5 p6) 0 = p0 :=
  (payloadByte_ofBytes p0 p1 p2 p3 p4 p5 p6).1
@[simp] theorem payloadByte_ofBytes_1 : payloadByte (ofBytes p0 p1 p2 p3 p4 p5 p6) 1 = p1 :=
  (payloadByte_ofBytes p0 p1 p2 p3 p4 p5 p6).2.1
@[simp] theorem payloadByte_ofBytes_2 : payloadByte (ofBytes p0 p1 p2 p3 p4 p5 p6) 2 = p2 :=
  (payloadByte_ofBytes p0 p1 p2 p3 p4 p5 p6).2.2.1
@[simp] theorem payloadByte_ofBytes_3 : payloadByte (ofBytes p0 p1 p2 p3 p4 p5 p6) 3 = p3 :=
  (payloadByte_ofBytes p0 p1 p2 p3 p4 p5 p6).2.2.2.1
@[simp] theorem payloadByte_ofBytes_4 : payloadByte (ofBytes p0 p1 p2 p3 p4 p5 p6) 4 = p4 :=
  (payloadByte_ofBytes p0 p1 p2 p3 p4 p5 p6).2.2.2.2.1
@[simp] theorem payloadByte_ofBytes_5 : payloadByte (ofBytes p0 p1 p2 p3 p4 p5 p6) 5 = p5 :=
  (payloadByte_ofBytes p0 p1 p2 p3 p4 p5 p6).2.2.2.2.2.1
@[simp] theorem payloadByte_ofBytes_6 : payloadByte (ofBytes p0 p1 p2 p3 p4 p5 p6) 6 = p6 :=
  (payloadByte_ofBytes p0 p1 p2 p3 p4 p5 p6).2.2.2.2.2.2
end

/-- A payload is its seven bytes. -/
theorem ofBytes_payloadByte (v : Payload) :
    ofBytes (payloadByte v 0) (payloadByte v 1) (payloadByte v 2) (payloadByte v 3) (payloadByte v 4) (payloadByte v 5)
      (payloadByte v 6) = v := by
  apply BitVec.eq_of_getLsbD_eq
  intro i hi
  rw [ofBytes_getLsbD]
  simp only [payloadByte_getLsbD]
  repeat' (split <;> try omega)
  all_goals
    rw [show ∀ a : Bool, ∀ j, j < 8 → (decide (j < 8) && a) = a from fun a j h => by simp [h]] <;> try omega
    congr 1
    omega

/-- Two payloads with the same bytes are the same. -/
theorem payload_ext {v w : Payload} (h : ∀ i < 7, payloadByte v i = payloadByte w i) : v = w := by
  rw [← ofBytes_payloadByte v, ← ofBytes_payloadByte w, h 0 (by omega), h 1 (by omega), h 2 (by omega),
    h 3 (by omega), h 4 (by omega), h 5 (by omega), h 6 (by omega)]

end Sys2Proof.Machine
end

