-- ==== Sys2Proof/Laws/PerInstr.lean ====
section
/-! SUPPORT. What is said of each instruction as syntax, one lemma for each constructor: its code word has as many code bits as
the `encoding` column of spec/opcode_table.json has characters. -/

namespace Sys2Proof.Laws

@[simp] theorem bitsMsb_length (n w : Nat) : (bitsMsb n w).length = n := by
  induction n with
  | zero => rfl
  | succ n ih => simp [bitsMsb, ih]

@[simp] theorem patternBits_first_length : (patternBits false).length = 24 := by decide

@[simp] theorem patternBits_retx_length : (patternBits true).length = 64 := by decide

/-- The number of characters in the `encoding` column of the instruction's row. -/
def CodeWidth.tableWidth : Instr → Nat
  | .idleWait => 3
  | .classify => 3
  | .locate => 3
  | .manch => 3
  | .descr => 3
  | .fold => 3
  | .slice => 3
  | .doneHold => 3
  | .reset _ => 2
  | .start => 2
  | .loadrow _ _ => 0
  | .setnrows _ => 0
  | .msym => 3
  | .search _ _ _ => 3
  | .hexup _ => 3
  | .decode _ => 3
  | .scramble _ => 0
  | .manchEncode _ => 0
  | .frameFirst _ _ _ => 137
  | .frameRetx _ _ _ => 177
  | .sym1 => 2
  | .sym0 => 2
  | .symInvalidLow => 2
  | .symInvalidHigh => 2
  | .payload _ _ _ _ _ => 56
  | .statusNone => 2
  | .statusSuccess => 2
  | .statusSanityFailure => 2
  | .statusIntegrityFailure => 2
  | .noRowInBand => 5
  | .preambleNotAt0 => 5
  | .shortManchester => 5
  | .checksumNonzero => 5
  | .ctrl0 => 4
  | .ctrl1 => 4
  | .ctrl2 => 4
  | .ctrl3 => 4
  | .ctrl4 => 4
  | .ctrl5 => 4
  | .ctrl6 => 4
  | .ctrl7 => 4
  | .ctrl8 => 4
  | .ctrl9 => 4
  | .ctrl10 => 4
  | .ctrl11 => 4
  | .ctrl12 => 4
  | .ctrl13 => 4
  | .ctrl14 => 4
  | .ctrl15 => 4

/-- The code bits of the instruction's code word are as many as its row of the table has. -/
def CodeWidth.Statement (i : Instr) : Prop :=
  (encode i).code.length = CodeWidth.tableWidth i

theorem CodeWidth.idleWait : CodeWidth.Statement .idleWait := rfl
theorem CodeWidth.classify : CodeWidth.Statement .classify := rfl
theorem CodeWidth.locate : CodeWidth.Statement .locate := rfl
theorem CodeWidth.manch : CodeWidth.Statement .manch := rfl
theorem CodeWidth.descr : CodeWidth.Statement .descr := rfl
theorem CodeWidth.fold : CodeWidth.Statement .fold := rfl
theorem CodeWidth.slice : CodeWidth.Statement .slice := rfl
theorem CodeWidth.doneHold : CodeWidth.Statement .doneHold := rfl
theorem CodeWidth.reset (x : Bool) : CodeWidth.Statement (.reset x) := by
  simp [CodeWidth.Statement, CodeWidth.tableWidth, encode, bare]
theorem CodeWidth.start : CodeWidth.Statement .start := rfl
theorem CodeWidth.loadrow (r : Nat) (bits : Bits) : CodeWidth.Statement (.loadrow r bits) := by
  simp [CodeWidth.Statement, CodeWidth.tableWidth, encode]
theorem CodeWidth.setnrows (n : Nat) : CodeWidth.Statement (.setnrows n) := by
  simp [CodeWidth.Statement, CodeWidth.tableWidth, encode]
theorem CodeWidth.msym : CodeWidth.Statement .msym := rfl
theorem CodeWidth.search (r startBit : Nat) (pat : Bits) : CodeWidth.Statement (.search r startBit pat) := by
  simp [CodeWidth.Statement, CodeWidth.tableWidth, encode]
theorem CodeWidth.hexup (n : Nibble) : CodeWidth.Statement (.hexup n) := by
  simp [CodeWidth.Statement, CodeWidth.tableWidth, encode]
theorem CodeWidth.decode (s : Stage) : CodeWidth.Statement (.decode s) := by
  simp [CodeWidth.Statement, CodeWidth.tableWidth, encode, bare]
theorem CodeWidth.scramble (pt : Payload) : CodeWidth.Statement (.scramble pt) := by
  simp [CodeWidth.Statement, CodeWidth.tableWidth, encode]
theorem CodeWidth.manchEncode (d : Bits) : CodeWidth.Statement (.manchEncode d) := by
  simp [CodeWidth.Statement, CodeWidth.tableWidth, encode]
theorem CodeWidth.frameFirst (x : Bool) (m : BitVec 112) (t : Bits) : CodeWidth.Statement (.frameFirst x m t) := by
  simp [CodeWidth.Statement, CodeWidth.tableWidth, encode]
theorem CodeWidth.frameRetx (x : Bool) (m : BitVec 112) (t : Bits) : CodeWidth.Statement (.frameRetx x m t) := by
  simp [CodeWidth.Statement, CodeWidth.tableWidth, encode]
theorem CodeWidth.sym1 : CodeWidth.Statement .sym1 := rfl
theorem CodeWidth.sym0 : CodeWidth.Statement .sym0 := rfl
theorem CodeWidth.symInvalidLow : CodeWidth.Statement .symInvalidLow := rfl
theorem CodeWidth.symInvalidHigh : CodeWidth.Statement .symInvalidHigh := rfl
theorem CodeWidth.payload (seed : Byte) (control checksum : Nibble) (counter : BitVec 16) (address : BitVec 24) : CodeWidth.Statement (.payload seed control checksum counter address) := by
  simp [CodeWidth.Statement, CodeWidth.tableWidth, encode, bare]
theorem CodeWidth.statusNone : CodeWidth.Statement .statusNone := rfl
theorem CodeWidth.statusSuccess : CodeWidth.Statement .statusSuccess := rfl
theorem CodeWidth.statusSanityFailure : CodeWidth.Statement .statusSanityFailure := rfl
theorem CodeWidth.statusIntegrityFailure : CodeWidth.Statement .statusIntegrityFailure := rfl
theorem CodeWidth.noRowInBand : CodeWidth.Statement .noRowInBand := rfl
theorem CodeWidth.preambleNotAt0 : CodeWidth.Statement .preambleNotAt0 := rfl
theorem CodeWidth.shortManchester : CodeWidth.Statement .shortManchester := rfl
theorem CodeWidth.checksumNonzero : CodeWidth.Statement .checksumNonzero := rfl
theorem CodeWidth.ctrl0 : CodeWidth.Statement .ctrl0 := rfl
theorem CodeWidth.ctrl1 : CodeWidth.Statement .ctrl1 := rfl
theorem CodeWidth.ctrl2 : CodeWidth.Statement .ctrl2 := rfl
theorem CodeWidth.ctrl3 : CodeWidth.Statement .ctrl3 := rfl
theorem CodeWidth.ctrl4 : CodeWidth.Statement .ctrl4 := rfl
theorem CodeWidth.ctrl5 : CodeWidth.Statement .ctrl5 := rfl
theorem CodeWidth.ctrl6 : CodeWidth.Statement .ctrl6 := rfl
theorem CodeWidth.ctrl7 : CodeWidth.Statement .ctrl7 := rfl
theorem CodeWidth.ctrl8 : CodeWidth.Statement .ctrl8 := rfl
theorem CodeWidth.ctrl9 : CodeWidth.Statement .ctrl9 := rfl
theorem CodeWidth.ctrl10 : CodeWidth.Statement .ctrl10 := rfl
theorem CodeWidth.ctrl11 : CodeWidth.Statement .ctrl11 := rfl
theorem CodeWidth.ctrl12 : CodeWidth.Statement .ctrl12 := rfl
theorem CodeWidth.ctrl13 : CodeWidth.Statement .ctrl13 := rfl
theorem CodeWidth.ctrl14 : CodeWidth.Statement .ctrl14 := rfl
theorem CodeWidth.ctrl15 : CodeWidth.Statement .ctrl15 := rfl

end Sys2Proof.Laws
end

