-- ==== Sys2Proof/Laws/Step.lean ====
section
/-! SUPPORT. What one stage step and one step of the block can do, said once; the proofs about every step cite these and do
not unfold the step. -/

namespace Sys2Proof.Machine

/-- `NSYM` as a number (00_scope.md R4). -/
@[simp] theorem nSym_eq : Config.nSym = 56 := rfl

/-- The ports after the failure action are those of the failure's result (60_exceptions.md R236). -/
theorem State.outputs_raiseCause (s : State) (c : Cause) : (s.raiseCause c).outputs =
    (match c.failure with | .sanity => Result.sanityFailure c | .integrity => Result.integrityFailure c).ports := by
  cases c <;> rfl

/-- A failure's status is no success. -/
theorem Cause.failure_status_ne_success (c : Cause) : c.failure.status ≠ .success := by
  cases c <;> decide

/-- What no stage step writes: the row buffer, the host's inputs and the model's own fields. -/
theorem stageStep_frame {s t : State} (h : stageStep s = .next t) :
    t.rows = s.rows ∧ t.numRows = s.numRows ∧ t.inputs = s.inputs ∧ t.resets = s.resets ∧
      t.returned = s.returned := by
  unfold stageStep at h
  cases hs : s.stage <;> simp only [hs] at h
  · cases h; simp
  · unfold execClassify at h
    split at h
    · cases h; simp
    · obtain ⟨-, rfl⟩ := withRow_eq_next h
      unfold State.classifyLength
      split <;> simp
  · obtain ⟨-, rfl⟩ := withRow_eq_next h
    unfold State.locateOn
    split <;> simp
  · unfold execManch at h
    split at h
    · cases h; simp
    · rename_i hc
      obtain ⟨-, rfl⟩ := withRow_eq_next h
      rcases State.msymOn_cases (s.rowAt s.rowIdx) (s := s) (by simp [Config.nSym] at hc; omega) with
        ⟨b, -, e⟩ | ⟨-, e⟩ <;> rw [e] <;> simp
  · cases h; simp
  · cases h; split <;> simp
  · cases h; simp
  · cases h; simp

/-- All a step that answers a next state can do: RESET alone; or the host write if one is driven, START if it is driven,
and the operation of the stage code (46_sequencer.md R201, R202). -/
theorem step_cases {s t : State} (h : step s = .next t) :
    (s.currentInput.rst = true ∧ t = s.popInput.resetAll) ∨
    (s.currentInput.rst = false ∧ ∃ u v,
      (u = s.popInput ∨ ∃ w, s.currentInput.write = some w ∧ exec w.instr s.popInput = .next u) ∧
      (v = u ∨ v = u.acceptStart) ∧ exec (stageInstr s.stage) v = .next t) := by
  unfold step State.fetch at h
  cases hr : s.currentInput.rst with
  | true =>
    simp [hostInInstr, hr, runAll, exec, execReset] at h
    exact .inl ⟨rfl, h.symm⟩
  | false =>
    refine .inr ⟨rfl, ?_⟩
    cases hs : s.currentInput.start <;> cases hw : s.currentInput.write <;>
      simp only [hostInInstr, hr, hs, hw, Option.toList, List.map, List.nil_append, List.cons_append, runAll] at h
    · obtain ⟨u, hu, hv⟩ := andThen_eq_next h
      cases hv
      exact ⟨_, _, .inl rfl, .inl rfl, hu⟩
    · obtain ⟨u, hu, hv⟩ := andThen_eq_next h
      obtain ⟨u', hu', hv'⟩ := andThen_eq_next hv
      cases hv'
      exact ⟨u, u, .inr ⟨_, rfl, hu⟩, .inl rfl, hu'⟩
    · obtain ⟨u, hu, hv⟩ := andThen_eq_next h
      obtain ⟨u', hu', hv'⟩ := andThen_eq_next hv
      cases hv'
      simp [exec, execStart] at hu
      exact ⟨_, u, .inl rfl, .inr hu.symm, hu'⟩
    · obtain ⟨u, hu, hv⟩ := andThen_eq_next h
      obtain ⟨u', hu', hv'⟩ := andThen_eq_next hv
      obtain ⟨u'', hu'', hv''⟩ := andThen_eq_next hv'
      cases hv''
      simp [exec, execStart] at hu'
      exact ⟨u, u', .inr ⟨_, rfl, hu⟩, .inr hu'.symm, hu''⟩

/-- After the host's commands, the operation of the stage code as it stood is the stage step of the new state, or the
block was not busy and the operation changes nothing (log 24). -/
theorem exec_stageInstr_after {s u v : State} (hst : u.stage = s.stage) (hv : v = u ∨ v = u.acceptStart) :
    exec (stageInstr s.stage) v = stageStep v ∨ (s.busy = false ∧ exec (stageInstr s.stage) v = .next v) := by
  by_cases hb : s.busy = true
  · have hu : u.busy = true := by simpa [State.busy, hst] using hb
    have hv' : v = u := by
      rcases hv with h | h
      · exact h
      · rw [h, State.acceptStart_busy hu]
    exact .inl (by rw [← exec_stageInstr, hv', hst])
  · have hb' : s.busy = false := by simpa using hb
    refine .inr ⟨hb', ?_⟩
    rcases busy_eq_false.1 hb' with h | h <;> simp [h, stageInstr, exec, execIdleWait, execDoneHold]

/-- A scan that begins with rows in no band is the scan of what follows them (40_classifier.md R130). -/
theorem classifyFrom_skip (rows : List Bits) (n k : Nat)
    (h : ∀ j < k, ∀ row, rows[j]? = some row → bandOf row.length = none) :
    classifyFrom n rows = classifyFrom (n + min k rows.length) (rows.drop k) := by
  induction k generalizing rows n with
  | zero => simp
  | succ k ih =>
    cases rows with
    | nil => simp [classifyFrom]
    | cons r rs =>
      have h0 := h 0 (by omega) r (by simp)
      simp only [classifyFrom, h0]
      rw [ih rs (n + 1) (fun j hj row hr => h (j + 1) (by omega) row (by simpa using hr))]
      simp
      congr 1
      omega

/-- A decode that stopped short of `n` symbols stops there whatever more is asked for (42_manchester.md R151). -/
theorem manchesterDecode_short {row : Bits} {pos n m : Nat} (h : (manchesterDecode row pos n).1.length < n) (hm : n ≤ m) :
    manchesterDecode row pos m = manchesterDecode row pos n := by
  induction n generalizing pos m with
  | zero => simp at h
  | succ n ih =>
    obtain ⟨m, rfl⟩ : ∃ k, m = k + 1 := ⟨m - 1, by omega⟩
    cases hs : (symbolAt row pos).bind Symbol.dataBit with
    | none => rw [manchesterDecode_none _ hs, manchesterDecode_none _ hs]
    | some b =>
      rw [manchesterDecode_some _ hs] at h
      rw [manchesterDecode_some _ hs, manchesterDecode_some _ hs, ih (by simpa using h) (by omega)]

end Sys2Proof.Machine
end

