-- ==== Sys2Proof/Tests/Slice0.lean ====
section
/-! SUPPORT. The model's own tests: ill-formed terms refused, code words written out from the opcode table, the unit vectors of
95_test_vectors.md, one step each, and for every statement with hypotheses a state and operands that meet them. -/

namespace Sys2Proof.Tests

set_option Elab.async false

open Sys2Proof Sys2Proof.Machine

/-! ## Helpers -/

/-- A field of the next state, if there is one. -/
def after {α : Type} (o : Host.Outcome State Fault Refusal) (f : State → α) : Option α :=
  match o with
  | .next s => some (f s)
  | .fault _ => none
  | .refused _ => none

/-- The outcome is a next state. -/
def goesOn (o : Host.Outcome State Fault Refusal) : Bool :=
  (after o (fun _ => ())).isSome

/-- Row `rA` of 95_test_vectors.md: a first frame, 137 bits. -/
def rowA : Bits :=
  (expand [0xF0, 0xF0, 0xFF, 0x4C, 0xB3, 0x4A, 0xCB, 0x4A, 0xCA, 0xCC, 0xCD, 0x2A, 0xAA, 0xD2, 0xD3, 0x2C, 0xAC,
    0x80]).take 137

/-- Row `rB` of 95_test_vectors.md: a retransmission, 177 bits. -/
def rowB : Bits :=
  (expand [0xF0, 0xF0, 0xF0, 0xF0, 0xF0, 0xF0, 0xF0, 0xFF, 0x33, 0x52, 0xAB, 0x4A, 0xD4, 0xB5, 0x2B, 0x4A, 0xAB, 0x4B,
    0x2B, 0x4B, 0x4B, 0x4B, 0x00]).take 177

/-- A row of `n` bits 0. -/
def zeros (n : Nat) : Bits := List.replicate n false

/-- The block at stage `st` with one loaded row. -/
def oneRow (st : Stage) (row : Bits) : State :=
  { State.reset with stage := st, numRows := 1, rows := [(0, row)] }

/-- The block at stage `st` with these payload registers. -/
def holding (st : Stage) (v : Payload) : State :=
  { State.reset with stage := st, sr := v }

/-- The block in MANCH after `n` symbols of `rowA`, of which `v` is the packing. -/
def decodingA (n : Nat) (v : Payload) : State :=
  { oneRow .manch rowA with bitPos := 25 + 2 * n, symCnt := n, sr := v }

/-- `d` as one code word of a format, given as a number of `n` bits. -/
def word (f : Format) (n w : Nat) : CodeWord := bare f (bitsMsb n w)

/-! ## Well-formedness: each check refuses an ill-formed term -/

theorem test_loadrow_row_too_big : (Instr.loadrow (2 ^ Config.rowW) []).wellFormed = false := by
  simp [Instr.wellFormed]

theorem test_loadrow_len_too_big : (Instr.loadrow 0 (zeros (2 ^ Config.lenW))).wellFormed = false := by
  simp [Instr.wellFormed, zeros]

theorem test_setnrows_too_big : (Instr.setnrows (2 ^ Config.rowW)).wellFormed = false := by
  simp [Instr.wellFormed]

theorem test_search_row_too_big : (Instr.search (2 ^ Config.rowW) 0 [true]).wellFormed = false := by
  simp [Instr.wellFormed]

theorem test_search_start_too_big : (Instr.search 0 (2 ^ Config.lenW) [true]).wellFormed = false := by
  simp [Instr.wellFormed]

theorem test_search_no_pattern : (Instr.search 0 0 []).wellFormed = false := by
  simp [Instr.wellFormed]

theorem test_search_pattern_too_long : (Instr.search 0 0 (zeros (2 ^ Config.lenW))).wellFormed = false := by
  simp [Instr.wellFormed, zeros]

theorem test_decode_idle_code : (Instr.decode .idle).wellFormed = false := by decide

theorem test_decode_done_code : (Instr.decode .done).wellFormed = false := by decide

theorem test_frame_first_out_of_band : (Instr.frameFirst false 0 (zeros 34)).wellFormed = false := by decide

theorem test_frame_retx_too_long : (Instr.frameRetx false 0 (zeros Config.maxRowBits)).wellFormed = false := by
  simp [Instr.wellFormed, zeros]

/-! ## Decoding: a word of every row of the opcode table, written out -/

theorem test_decode_idle_wait : decode (bare .stage [false, false, false]) = .ok .idleWait := by decide

theorem test_decode_classify : decode (bare .stage [false, false, true]) = .ok .classify := by decide

theorem test_decode_locate : decode (bare .stage [false, true, false]) = .ok .locate := by decide

theorem test_decode_manch : decode (bare .stage [false, true, true]) = .ok .manch := by decide

theorem test_decode_descr : decode (bare .stage [true, false, false]) = .ok .descr := by decide

theorem test_decode_fold : decode (bare .stage [true, false, true]) = .ok .fold := by decide

theorem test_decode_slice : decode (bare .stage [true, true, false]) = .ok .slice := by decide

theorem test_decode_done_hold : decode (bare .stage [true, true, true]) = .ok .doneHold := by decide

theorem test_decode_reset : decode (bare .hostIn [true, false]) = .ok (.reset false) ∧
    decode (bare .hostIn [true, true]) = .ok (.reset true) := by decide

theorem test_decode_start : decode (bare .hostIn [false, true]) = .ok .start := by decide

theorem test_decode_loadrow : decodeCode ⟨.hostWr, [], .row 2 3 [true, false, true]⟩ = .ok (.loadrow 2 [true, false, true]) ∧
    decodeCode ⟨.hostWr, [], .row 2 4 [true, false, true]⟩ = .error .lengthMismatch := by decide

theorem test_decode_setnrows : decode ⟨.hostWr, [], .count 0⟩ = .ok (.setnrows 0) := by
  simp [decode, decodeCode, decodeHostWr, Instr.wellFormed]

theorem test_decode_msym : decode (bare .primitive [false, true, true]) = .ok .msym := by decide

theorem test_decode_search : decodeCode ⟨.primitive, [false, true, false], .pattern 0 1 [true, true] 2⟩ =
    .ok (.search 0 1 [true, true]) := by decide

theorem test_decode_hexup : decode ⟨.primitive, [true, true, false], .nibble 0xB⟩ = .ok (.hexup 0xB) := by decide

theorem test_decode_decode : decode (bare .composite [false, false, true]) = .ok (.decode .classify) ∧
    decode (bare .composite [true, true, false]) = .ok (.decode .slice) ∧
    decode (bare .composite [true, true, true]) = .error (.noSuchCode .composite) := by decide

theorem test_decode_scramble : decode ⟨.testAid, [], .plaintext 0x5A2C0123ABCDEF⟩ = .ok (.scramble 0x5A2C0123ABCDEF) := by
  decide

theorem test_decode_manch_encode : decode ⟨.testAid, [], .dataBits [true]⟩ = .ok (.manchEncode [true]) := by decide

/-- The 137 bits of `rA`. -/
theorem test_decode_frame_first : decode ⟨.row, bitsMsb 137 0x1E1E1FE996695969595999A5555A5A65959, .trailing []⟩ =
    .ok (.frameFirst false 0x996695969595999A5555A5A65959 []) := by decide +kernel

/-- The 177 bits of `rB`. -/
theorem test_decode_frame_retx : decodeCode ⟨.row, bitsMsb 177 0x1E1E1E1E1E1E1E1FE66A55695A96A5695569656969696, .trailing []⟩ =
    .ok (.frameRetx false 0x66A55695A96A5695569656969696 []) := by decide +kernel

theorem test_decode_sym1 : decode (bare .msymbol [false, true]) = .ok .sym1 := by decide

theorem test_decode_sym0 : decode (bare .msymbol [true, false]) = .ok .sym0 := by decide

theorem test_decode_sym_invalid_low : decode (bare .msymbol [false, false]) = .ok .symInvalidLow := by decide

theorem test_decode_sym_invalid_high : decode (bare .msymbol [true, true]) = .ok .symInvalidHigh := by decide

theorem test_decode_payload : decode (word .payload56 56 0x5A2C0123ABCDEF) =
    .ok (.payload 0x5A 0x2 0xC 0x0123 0xABCDEF) := by decide +kernel

theorem test_decode_status_none : decode (bare .status [false, false]) = .ok .statusNone := by decide

theorem test_decode_status_success : decode (bare .status [false, true]) = .ok .statusSuccess := by decide

theorem test_decode_status_sanity_failure : decode (bare .status [true, false]) = .ok .statusSanityFailure := by decide

theorem test_decode_status_integrity_failure : decode (bare .status [true, true]) = .ok .statusIntegrityFailure := by decide

theorem test_decode_no_row_in_band : decode (bare .cause [true, false, false, false, true]) = .ok .noRowInBand := by decide

theorem test_decode_preamble_not_at0 : decode (bare .cause [true, false, false, true, false]) = .ok .preambleNotAt0 := by decide

theorem test_decode_short_manchester : decode (bare .cause [true, true, false, true, true]) = .ok .shortManchester := by decide

theorem test_decode_checksum_nonzero : decode (bare .cause [true, true, true, false, true]) = .ok .checksumNonzero := by decide

theorem test_decode_ctrl0 : decode (bare .control [false, false, false, false]) = .ok .ctrl0 := by decide

theorem test_decode_ctrl1 : decode (bare .control [false, false, false, true]) = .ok .ctrl1 := by decide

theorem test_decode_ctrl2 : decode (bare .control [false, false, true, false]) = .ok .ctrl2 := by decide

theorem test_decode_ctrl3 : decode (bare .control [false, false, true, true]) = .ok .ctrl3 := by decide

theorem test_decode_ctrl4 : decode (bare .control [false, true, false, false]) = .ok .ctrl4 := by decide

theorem test_decode_ctrl5 : decode (bare .control [false, true, false, true]) = .ok .ctrl5 := by decide

theorem test_decode_ctrl6 : decode (bare .control [false, true, true, false]) = .ok .ctrl6 := by decide

theorem test_decode_ctrl7 : decode (bare .control [false, true, true, true]) = .ok .ctrl7 := by decide

theorem test_decode_ctrl8 : decode (bare .control [true, false, false, false]) = .ok .ctrl8 := by decide

theorem test_decode_ctrl9 : decode (bare .control [true, false, false, true]) = .ok .ctrl9 := by decide

theorem test_decode_ctrl10 : decode (bare .control [true, false, true, false]) = .ok .ctrl10 := by decide

theorem test_decode_ctrl11 : decode (bare .control [true, false, true, true]) = .ok .ctrl11 := by decide

theorem test_decode_ctrl12 : decode (bare .control [true, true, false, false]) = .ok .ctrl12 := by decide

theorem test_decode_ctrl13 : decode (bare .control [true, true, false, true]) = .ok .ctrl13 := by decide

theorem test_decode_ctrl14 : decode (bare .control [true, true, true, false]) = .ok .ctrl14 := by decide

theorem test_decode_ctrl15 : decode (bare .control [true, true, true, true]) = .ok .ctrl15 := by decide

/-- Reserved codes are refused: the input pair 00, a cause pair no failure leaves (60_exceptions.md R235). -/
theorem test_decode_refuses : decode (bare .hostIn [false, false]) = .error (.noSuchCode .hostIn) ∧
    decode (bare .cause [true, false, false, true, true]) = .error (.noSuchCode .cause) := by decide

theorem test_table_word_frame_first : decodeTableWord 144 0x1E1E1FE996695969595999A5555A5A65959 =
    some (.frameFirst false 0x996695969595999A5555A5A65959 []) := by decide +kernel

/-! ## One step of each instruction, from 95_test_vectors.md -/

theorem test_idle_wait : after (exec .idleWait (holding .idle 7)) State.stage = some .idle := by decide +kernel

theorem test_done_hold : after (exec .doneHold (holding .done 7)) State.sr = some 7 := by decide +kernel

/-- V-CL1. -/
theorem test_classify_no_rows : after (exec .classify (holding .classify 0)) (fun t => (t.stage, t.status, t.failStage)) =
    some (.done, .sanityFailure, 1) := by decide +kernel

/-- V-CL4, V-CL5: 170 is the first-frame band, 171 the retransmission band. -/
theorem test_classify_bands :
    after (exec .classify (oneRow .classify (zeros 170))) (fun t => (t.stage, t.isRetx)) = some (.locate, false) ∧
    after (exec .classify (oneRow .classify (zeros 171))) (fun t => (t.stage, t.isRetx)) = some (.locate, true) := by
  decide +kernel

/-- V-LO1. -/
theorem test_locate_passes : after (exec .locate (oneRow .locate rowA)) (fun t => (t.stage, t.bitPos)) =
    some (.manch, 25) := by decide +kernel

/-- V-LO2: the pattern at offset 1 is not enough. -/
theorem test_locate_fails : after (exec .locate (oneRow .locate (false :: rowA))) (fun t => (t.stage, t.failStage)) =
    some (.done, 2) := by decide +kernel

/-- PRG1, before step 59: the leaving step. -/
theorem test_manch_leaves : after (exec .manch (decodingA 56 0x5A767754FF32DD)) State.stage = some .descr := by
  decide +kernel

/-- PRG1, before step 58: the last symbol. -/
theorem test_manch_last_symbol : after (exec .manch (decodingA 55 0x2D3B3BAA7F996E)) (fun t => (t.sr, t.bitPos, t.symCnt)) =
    some (0x5A767754FF32DD, 137, 56) := by decide +kernel

/-- V-DE1. -/
theorem test_descr_frame_a : after (exec .descr (holding .descr 0x5A767754FF32DD)) State.sr = some 0x5A2C0123ABCDEF := by
  decide +kernel

/-- V-DE8. -/
theorem test_descr_deadbeef : after (exec .descr (holding .descr 0xDEADBEEF010203)) State.sr = some 0xDE731351EE0301 := by
  decide +kernel

/-- V-FO1, V-FO5: a valid payload, and an undetected two-bit error. -/
theorem test_fold_passes : after (exec .fold (holding .fold 0x5A2C0123ABCDEF)) State.stage = some .slice ∧
    after (exec .fold (holding .fold 0x5A2D0123ABCDFF)) State.stage = some .slice := by decide +kernel

/-- V-FO3, V-FO9. -/
theorem test_fold_fails : after (exec .fold (holding .fold 0x5A2C0133ABCDEF)) State.failStage = some 5 ∧
    after (exec .fold (holding .fold 0x0103060C183060)) State.status = some .integrityFailure := by decide +kernel

/-- V-SL1: the two byte orders of the address. -/
theorem test_slice_address : after (exec .slice (holding .slice 0x5A2C0123ABCDEF))
    (fun t => (t.outputs.outAddressBytes, t.outputs.outAddressId)) = some (0xABCDEF, 0xEFCDAB) := by decide +kernel

/-- V-SL3. -/
theorem test_slice_hex : after (exec .slice (holding .slice 0x009E000A0A0B0C))
    (fun t => (t.outputs.outAddressHex, t.outputs.outCounter)) = some (0x304130423043, 10) := by decide +kernel

/-- PRG6 k: reset in the middle of an invocation. -/
theorem test_reset : after (exec (.reset true) (oneRow .locate rowA)) (fun t => (t.stage, t.numRows, t.rows)) =
    some (.idle, 0, []) := by decide +kernel

/-- PRG4: the second START wipes the registers at once. -/
theorem test_start : after (exec .start (holding .done 0x5A2C0133ABCDEF)) (fun t => (t.stage, t.sr)) =
    some (.classify, 0) := by decide +kernel

/-- PRG6 d and f. -/
theorem test_loadrow : after (exec (.loadrow 0 rowA) (holding .done 0)) (fun t => t.rowLen 0) = some 137 ∧
    after (exec (.loadrow 0 (zeros 150)) (oneRow .classify rowA)) (fun t => t.rowLen 0) = some 137 := by decide +kernel

/-- PRG6 d. -/
theorem test_setnrows : after (exec (.setnrows 1) (holding .done 0)) State.numRows = some 1 ∧
    after (exec (.setnrows 0) (oneRow .classify rowA)) State.numRows = some 1 := by decide +kernel

/-- PRG1, before step 3 and before step 4: a 0 comes in, then a 1. -/
theorem test_msym : after (exec .msym (decodingA 0 0)) (fun t => (t.sr, t.bitPos, t.symCnt)) = some (0, 27, 1) ∧
    after (exec .msym (decodingA 1 0)) (fun t => (t.sr, t.bitPos, t.symCnt)) = some (1, 29, 2) := by decide +kernel

/-- V-MA2: one bit short. -/
theorem test_msym_short : after (exec .msym { decodingA 55 0x2D3B3BAA7F996E with rows := [(0, rowA.take 136)] })
    (fun t => (t.stage, t.failStage, t.sr)) = some (.done, 3, 0x2D3B3BAA7F996E) := by decide +kernel

/-- The SEARCH vectors after V-LO8. -/
theorem test_search :
    after (exec (.search 0 0 (patternBits false)) (oneRow .locate (false :: rowA))) State.returned =
      some (.offset (some 1)) ∧
    after (exec (.search 0 0 (patternBits false)) (oneRow .locate rowA)) State.returned = some (.offset (some 0)) := by
  decide +kernel

/-- The SEARCH vectors after V-LO8. -/
theorem test_search_not_found :
    after (exec (.search 0 1 (patternBits false)) (oneRow .locate rowA)) State.returned = some (.offset none) := by
  decide +kernel

theorem test_hexup : after (exec (.hexup 0x9) State.reset) State.returned = some (.character 0x39) ∧
    after (exec (.hexup 0xA) State.reset) State.returned = some (.character 0x41) := by decide +kernel

/-- V-CL2: a row of 130 bits is skipped and no row is left. -/
theorem test_run_no_row_in_band : after (exec (.decode .classify) (oneRow .done (zeros 130)))
    (fun t => (t.stage, t.failStage, t.rowIdx)) = some (.done, 1, 1) := by decide +kernel

/-- PRG1, from the descrambler on. -/
theorem test_run_from_descr : after (exec (.decode .descr) (holding .descr 0x5A767754FF32DD))
    (fun t => (t.stage, t.status, t.outputs.outCounter)) = some (.done, .success, 291) := by decide +kernel

/-- V-DE2, backwards. -/
theorem test_scramble : after (exec (.scramble 0xA344FFFF010080) State.reset) State.returned =
    some (.bytes 0xA3E718E7E6E666) := by decide +kernel

/-- The last byte of frame A, DD. -/
theorem test_manch_encode : after (exec (.manchEncode (bitsMsb 8 0xDD)) State.reset) State.returned =
    some (.bits (bitsMsb 16 0b0101100101011001)) := by decide +kernel

/-- PRG1. -/
theorem test_frame_first : after (exec (.frameFirst false 0x996695969595999A5555A5A65959 []) State.reset)
    (fun t => (t.stage, t.outputs.outControl, t.outputs.outAddressId)) = some (.done, 2, 0xEFCDAB) := by decide +kernel

/-- PRG2's second row, with the unexamined bit 1 (V-LO6). -/
theorem test_frame_retx : after (exec (.frameRetx true 0x66A55695A96A5695569656969696 []) State.reset)
    (fun t => (t.stage, t.outputs.outControl, t.outputs.outIsRetx)) = some (.done, 4, true) := by decide +kernel

theorem test_sym_1 : after (exec .sym1 (decodingA 1 0)) (fun t => (t.sr, t.symCnt)) = some (1, 2) := by decide +kernel

theorem test_sym_0 : after (exec .sym0 (decodingA 2 1)) (fun t => (t.sr, t.symCnt)) = some (2, 3) := by decide +kernel

theorem test_sym_invalid_low : after (exec .symInvalidLow (decodingA 0 0)) (fun t => (t.status, t.failStage)) =
    some (.integrityFailure, 3) := by decide +kernel

theorem test_sym_invalid_high : after (exec .symInvalidHigh (decodingA 55 0)) (fun t => (t.status, t.failStage)) =
    some (.integrityFailure, 3) := by decide +kernel

/-- V-SL2. -/
theorem test_payload : after (exec (.payload 0xA3 0x4 0x4 0xFFFF 0x010080) State.reset) State.returned =
    some (.message ⟨0xA3, 4, 4, 65535, 0x010080, 0x303130303830, 0x800001, false⟩) := by decide +kernel

theorem test_status_none : after (exec .statusNone { holding .idle 0 with msgValid := true }) State.msgValid =
    some false := by decide +kernel

theorem test_status_success : after (exec .statusSuccess (holding .slice 0)) (fun t => (t.status, t.msgValid)) =
    some (.success, true) := by decide +kernel

theorem test_status_sanity_failure : after (exec .statusSanityFailure (holding .locate 0)) State.failStage = some 2 := by
  decide +kernel

theorem test_status_integrity_failure : after (exec .statusIntegrityFailure (holding .fold 0)) State.failStage = some 5 := by
  decide +kernel

/-- The table of failure codes. -/
theorem test_causes :
    after (exec .noRowInBand State.reset) (fun t => (t.outputs.status, t.failStage)) = some (2, 1) ∧
    after (exec .preambleNotAt0 State.reset) (fun t => (t.outputs.status, t.failStage)) = some (2, 2) ∧
    after (exec .shortManchester State.reset) (fun t => (t.outputs.status, t.failStage)) = some (3, 3) ∧
    after (exec .checksumNonzero State.reset) (fun t => (t.outputs.status, t.failStage)) = some (3, 5) := by
  decide +kernel

/-- The six fixed labels, passed with their codes. -/
theorem test_control_labels :
    after (exec .ctrl1 State.reset) State.returned = some (.control 1 "My") ∧
    after (exec .ctrl2 State.reset) State.returned = some (.control 2 "Up") ∧
    after (exec .ctrl4 State.reset) State.returned = some (.control 4 "Down") ∧
    after (exec .ctrl8 State.reset) State.returned = some (.control 8 "Prog") ∧
    after (exec .ctrl9 State.reset) State.returned = some (.control 9 "Sun+Flag") ∧
    after (exec .ctrl10 State.reset) State.returned = some (.control 10 "Flag") := ⟨rfl, rfl, rfl, rfl, rfl, rfl⟩

/-- V-SL1's record. -/
theorem test_record : (State.hostRecord { holding .done 0x5A2C0123ABCDEF with msgValid := true, status := .success }).map
    (fun r => (r.model, r.id, r.control, r.address)) = some ("Somfy-RTS", 15715755, "Up", "ABCDEF") := by decide +kernel

/-- Placing a stage code makes the very next step run it. -/
theorem test_with_fetch_word : after (step (State.reset.withFetchWord 8 4)) State.stage = some .fold := by decide +kernel

/-! ## For every statement with hypotheses, a state and operands that meet them -/

/-- An outcome that gives a value is a next state. -/
theorem next_of_after {α : Type} {o : Host.Outcome State Fault Refusal} {f : State → α} {a : α}
    (h : after o f = some a) : ∃ t, o = .next t ∧ f t = a := by
  cases o with
  | next t => exact ⟨t, rfl, by simpa [after] using h⟩
  | fault r => cases h
  | refused r => cases h

/-- What the host drives next. -/
def driving (i : HostInput) (s : State) : State := { s with inputs := [i] }

theorem witness_ResetWipesEverything :
    (driving ⟨true, true, some (.setNRows 1)⟩ (oneRow .manch rowA)).currentInput.rst = true := by decide

theorem witness_StartWipesCoreRegisters : (holding .done 7).busy = false ∧ (holding .idle 7).busy = false ∧
    (holding .classify 7).busy = true ∧ (holding .slice 7).busy = true := by decide

theorem witness_StepIgnoresStartWhileBusy : (decodingA 1 0).busy = true := by decide

theorem witness_StepIgnoresWritesWhileBusy : (holding .classify 0).busy = true ∧ (decodingA 55 0).busy = true := by decide

theorem witness_StartSeesWriteOfSameStep :
    (driving ⟨false, true, some (.loadRow 0 rowA)⟩ (holding .done 7)).busy = false ∧ 0 < Config.maxRows ∧
    rowA.length ≤ Config.maxRowBits := by decide +kernel

theorem witness_LoadrowWritesOneRow :
    ((holding .done 7).busy = false ∧ Config.maxRows - 1 < Config.maxRows ∧
      (zeros Config.maxRowBits).length ≤ Config.maxRowBits) ∧
    ¬((holding .slice 7).busy = false) ∧ ¬(Config.maxRows < Config.maxRows) ∧
    ¬((zeros (Config.maxRowBits + 1)).length ≤ Config.maxRowBits) := by
  refine ⟨⟨by decide, by simp [Config.maxRows], by simp [zeros]⟩, by decide, by simp, by simp [zeros]⟩

theorem witness_LaterLoadrowReplaces : ∃ t u, [true].length ≤ Config.maxRowBits ∧
    exec (.loadrow 0 rowA) State.reset = .next t ∧ exec (.loadrow 0 [true]) t = .next u :=
  ⟨_, _, by decide +kernel, rfl, rfl⟩

theorem witness_SetnrowsWritesCount : (holding .idle 0).busy = false ∧ ¬((holding .descr 0).busy = false) ∧
    ¬(Config.maxRows + 1 ≤ Config.maxRows) := ⟨by decide, by decide, by omega⟩

theorem witness_WaitingStagesHold : (holding .done 7).busy = false ∧ (holding .done 7).currentInput = ⟨false, false, none⟩ := by
  decide

theorem witness_DoneHoldsResult :
    (driving ⟨false, false, some (.loadRow 0 (zeros 150))⟩ (holding .done 7)).stage = .done ∧
    (driving ⟨false, false, some (.loadRow 0 (zeros 150))⟩ (holding .done 7)).currentInput.rst = false ∧
    (driving ⟨false, false, some (.loadRow 0 (zeros 150))⟩ (holding .done 7)).currentInput.start = false := by decide

theorem witness_ClassifyExaminesOneRow : (oneRow .classify (zeros 171)).numRows ≤ Config.maxRows ∧
    { oneRow .classify rowA with rowIdx := 1 }.numRows ≤ { oneRow .classify rowA with rowIdx := 1 }.rowIdx ∧
    (oneRow .classify (zeros 171)).rowIdx < (oneRow .classify (zeros 171)).numRows ∧
    170 < (oneRow .classify (zeros 171)).rowLen 0 ∧ (oneRow .classify (zeros 170)).rowLen 0 ≤ 170 ∧
    130 < (oneRow .classify (zeros 131)).rowLen 0 ∧ (oneRow .classify (zeros 130)).rowLen 0 ≤ 130 := by decide +kernel

/-- V-CL6 and V-CL10. -/
theorem witness_ClassifyTakesFirstRowInBand : classify [[], zeros 4, zeros 130, rowA] = some (false, 3) ∧
    classify [rowB ++ zeros 3, rowA ++ zeros 3] = some (true, 0) ∧ classify [zeros 130, zeros 100, zeros 5] = none := by
  decide +kernel

theorem witness_SearchGivesLeastOffset : 0 < Config.maxRows ∧ Config.maxRows ≤ Config.maxRows ∧
    Config.maxRows ≤ { oneRow .classify rowA with rowIdx := Config.maxRows, numRows := Config.maxRows + 1 }.rowIdx ∧
    { oneRow .classify rowA with rowIdx := Config.maxRows, numRows := Config.maxRows + 1 }.rowIdx <
      { oneRow .classify rowA with rowIdx := Config.maxRows, numRows := Config.maxRows + 1 }.numRows ∧
    { oneRow .classify rowA with rowIdx := Config.maxRows }.symCnt < 56 :=
  ⟨by decide +kernel, Nat.le_refl _, Nat.le_refl _, Nat.lt_succ_self _, by decide⟩

theorem witness_SearchAtZeroIsPrefixTest : bandOf (zeros 131).length = some false ∧ bandOf (zeros 171).length = some true := by
  decide +kernel

theorem witness_LocateComparesAtOffsetZero : (oneRow .locate rowA).rowIdx < Config.maxRows ∧
    search ((oneRow .locate rowA).rowAt 0) 0 (patternBits false) = some 0 ∧
    search ((oneRow .locate (rowA.set 23 false)).rowAt 0) 0 (patternBits false) ≠ some 0 ∧
    search ((oneRow .locate (rowA.set 0 false)).rowAt 0) 0 (patternBits false) ≠ some 0 := by decide +kernel

theorem witness_MsymDecodesOneSymbol : (decodingA 55 0).symCnt < 56 ∧ (decodingA 55 0).rowIdx < Config.maxRows ∧
    { decodingA 55 0 with rows := [(0, rowA.take 136)] }.rowLen 0 < (decodingA 55 0).bitPos + 2 ∧
    (decodingA 55 0).bitPos + 2 ≤ (decodingA 55 0).rowLen 0 ∧
    (decodingA 55 0).rowBit 0 135 = some false ∧ (decodingA 55 0).rowBit 0 136 = some true := by decide +kernel

/-- The equal pair of the invalid-symbol clause, at the first symbol. -/
theorem witness_MsymDecodesOneSymbol_invalid :
    { decodingA 0 0 with rows := [(0, rowA.set 25 false)] }.rowBit 0 25 = some false ∧
    { decodingA 0 0 with rows := [(0, rowA.set 25 false)] }.rowBit 0 26 = some false := by decide +kernel

theorem witness_SymbolCodesDecode : (decodingA 55 0).symCnt < 56 ∧ 56 ≤ (decodingA 56 0).symCnt := by decide

theorem witness_ManchRunsMsymOrLeaves : 56 ≤ (decodingA 56 0).symCnt ∧ (decodingA 55 0).symCnt < 56 ∧
    (decodingA 55 0).rowIdx < Config.maxRows ∧ (decodingA 55 0).bitPos + 2 ≤ (decodingA 55 0).rowLen 0 ∧
    (decodingA 55 0).rowBit 0 135 ≠ (decodingA 55 0).rowBit 0 136 := by decide +kernel

theorem witness_PackingIsMostSignificantFirst : (bitsMsb 56 0xA3E718E7E6E666).length = 56 ∧
    packBits (bitsMsb 56 0xA3E718E7E6E666) = 0xA3E718E7E6E666 := by decide +kernel

theorem witness_FoldDecidesOnNibbleSum :
    (0xDD#8 = 0x5A#8 ^^^ 0x2C#8 ^^^ 0x01#8 ^^^ 0x23#8 ^^^ 0xAB#8 ^^^ 0xCD#8 ^^^ 0xEF#8 ∧
      (0xDD#8 &&& 0x0F#8) ^^^ (0xDD#8 >>> 4) = 0#8) ∧
    (0xCD#8 = 0x5A#8 ^^^ 0x2C#8 ^^^ 0x01#8 ^^^ 0x33#8 ^^^ 0xAB#8 ^^^ 0xCD#8 ^^^ 0xEF#8 ∧
      (0xCD#8 &&& 0x0F#8) ^^^ (0xCD#8 >>> 4) ≠ 0#8) := by decide

theorem witness_FoldCatchesOddErrors : foldNibble 0x5A2C0123ABCDEF = 0 ∧
    foldNibble (0x5A2C0123ABCDEF ^^^ 0x00010000000010) = 0 ∧ foldNibble (0x5A2C0123ABCDEF ^^^ 0x00000010000000) ≠ 0 := by
  decide +kernel

theorem witness_StatusCodesAreWrittenWhereTheyArise : (holding .idle 0).stage ≠ .done ∧ (holding .done 0).stage = .done ∧
    (holding .slice 0).stage = .slice ∧ (holding .fold 0).stage ≠ .slice ∧ (holding .locate 0).stage = .locate ∧
    (holding .manch 0).stage ≠ .classify ∧ (holding .manch 0).stage ≠ .locate ∧ (holding .manch 0).stage = .manch ∧
    (holding .descr 0).stage ≠ .manch ∧ (holding .descr 0).stage ≠ .fold := by decide

theorem witness_ControlCodesPassThrough : [Instr.ctrl0, .ctrl1, .ctrl2, .ctrl3, .ctrl4, .ctrl5, .ctrl6, .ctrl7, .ctrl8,
    .ctrl9, .ctrl10, .ctrl11, .ctrl12, .ctrl13, .ctrl14, .ctrl15][15]? = some .ctrl15 := by decide

theorem witness_PortsZeroWithoutMessage : (holding .fold 0x5A2C0133ABCDEF).msgValid = false := by decide

theorem witness_SlicePublishesMessage : { holding .done 0x5A2C0123ABCDEF with msgValid := true }.msgValid = true ∧
    (holding .done 7).stage = .done ∧ (holding .done 7).currentInput.rst = false ∧
    (holding .done 7).currentInput.start = false := by decide

theorem witness_HostRecordFromPorts : (holding .done 1).status ≠ .success ∧
    { holding .done 0x5A2C0123ABCDEF with status := .success, msgValid := true }.status = .success ∧
    { holding .done 0x5A2C0123ABCDEF with status := .success, msgValid := true }.msgValid = true := by decide

theorem witness_DecodeRunRefinesFunction : (oneRow .done rowA).numRows ≤ Config.maxRows ∧
    State.reset.numRows ≤ Config.maxRows := by decide +kernel

theorem witness_DecodeEndsInDone : Stage.runs .classify = true ∧ Stage.runs .slice = true ∧
    (decodingA 55 0).rowIdx < Config.maxRows ∧ (decodingA 55 0).numRows ≤ Config.maxRows := by decide +kernel

theorem witness_EqualBuffersEqualResults : (oneRow .done rowA).numRows ≤ Config.maxRows ∧
    (oneRow .done rowA).rowSet = { decodingA 7 0x5A with resets := 3 }.rowSet := by decide +kernel

theorem witness_LoadedRowsLeaveNothingFree : (oneRow .done rowA).rowsLoaded ∧
    { oneRow .done rowA with resets := 3 }.numRows = (oneRow .done rowA).numRows ∧
    { oneRow .done rowA with resets := 3 }.rows = (oneRow .done rowA).rows := by
  refine ⟨?_, rfl, rfl⟩
  unfold State.rowsLoaded
  decide +kernel

theorem witness_UnexaminedBitsDoNotMatter : rowA.length = (rowA.set 24 true).length ∧
    (∀ i < 24, rowA[i]? = (rowA.set 24 true)[i]?) ∧ (∀ i < 137, 25 ≤ i → rowA[i]? = (rowA.set 24 true)[i]?) ∧
    bandOf rowA.length = some false := by decide +kernel

/-- The retransmission shape, with a changed trailing bit too. -/
theorem witness_UnexaminedBitsDoNotMatter_retx :
    (rowB ++ zeros 3).length = ((rowB ++ zeros 2 ++ [true]).set 64 true).length ∧
    (∀ i < 64, (rowB ++ zeros 3)[i]? = ((rowB ++ zeros 2 ++ [true]).set 64 true)[i]?) ∧
    (∀ i < 177, 65 ≤ i → (rowB ++ zeros 3)[i]? = ((rowB ++ zeros 2 ++ [true]).set 64 true)[i]?) ∧
    bandOf (rowB ++ zeros 3).length = some true := by decide +kernel

theorem witness_ShortRowNeverSucceeds : (bandOf (zeros 131).length = some false ∧ (zeros 131).length < dataStartBit false + 112) ∧
    (bandOf (rowA.take 136).length = some false ∧ (rowA.take 136).length < dataStartBit false + 112) ∧
    (bandOf (zeros 171).length = some true ∧ (zeros 171).length < dataStartBit true + 112) ∧
    (bandOf (rowB.take 176).length = some true ∧ (rowB.take 176).length < dataStartBit true + 112) := by decide +kernel

theorem witness_SingleBitErrorCaught : bandOf rowA.length = some false ∧
    rowA.take (preambleBitLength false) = patternBits false ∧
    (manchesterDecode rowA (dataStartBit false) 56).1.length = 56 ∧ dataStartBit false ≤ 25 ∧
    136 < dataStartBit false + 112 ∧ rowA[25]? = some true ∧ rowA[136]? = some true := by decide +kernel

theorem witness_SingleBitErrorCaught_retx : bandOf rowB.length = some true ∧
    rowB.take (preambleBitLength true) = patternBits true ∧
    (manchesterDecode rowB (dataStartBit true) 56).1.length = 56 ∧ dataStartBit true ≤ 65 ∧
    176 < dataStartBit true + 112 ∧ rowB[65]? = some false ∧ rowB[176]? = some false := by decide +kernel

/-- One row for each clause: no row in band, a bad pattern, a short decode, a bad fold (the row of PRG4), a success. -/
theorem witness_EarliestFailureReported : classify [zeros 130] = none ∧
    classify [zeros 131] = some (false, 0) ∧ (zeros 131).take 24 ≠ patternBits false ∧
    (rowA.take 136).take 24 = patternBits false ∧ (manchesterDecode (rowA.take 136) 25 56).1.length = 55 ∧
    (manchesterDecode rowA 25 56).1.length = 56 ∧ foldNibble (descramble (packBits (manchesterDecode rowA 25 56).1)) = 0 ∧
    foldNibble (descramble (packBits (bitsMsb 56 0x5A767744EF22CD))) ≠ 0 ∧
    (manchesterDecode (rowA.take 25 ++ manchEncode (bitsMsb 56 0x5A767744EF22CD)) 25 56).1 =
      bitsMsb 56 0x5A767744EF22CD := by decide +kernel

theorem witness_FramesDecodeTheirPayload : State.reset.busy = false ∧
    bitsMsb 112 (0x996695969595999A5555A5A65959#112).toNat = manchEncode (bitsMsb 56 (0x5A767754FF32DD#56).toNat) ∧
    foldNibble (descramble 0x5A767754FF32DD) = 0 ∧ foldNibble (descramble 0x5A767744EF22CD) ≠ 0 ∧
    bitsMsb 112 (natMsb (manchEncode (bitsMsb 56 0x5A767744EF22CD))) = manchEncode (bitsMsb 56 0x5A767744EF22CD) ∧
    (zeros 33).length ≤ 33 := by decide +kernel

theorem witness_FramesDecodeTheirPayload_retx :
    bitsMsb 112 (0x66A55695A96A5695569656969696#112).toNat = manchEncode (bitsMsb 56 (0xA3E718E7E6E666#56).toNat) ∧
    177 + (zeros (Config.maxRowBits - 177)).length ≤ Config.maxRowBits :=
  ⟨by decide +kernel, by simp [zeros, Config.maxRowBits]; omega⟩

theorem witness_FramesRunToDone : (Instr.frameFirst true 0 (zeros 33)).wellFormed = true ∧
    (Instr.frameRetx true 0 []).wellFormed = true ∧ State.reset.busy = false ∧ (decodingA 3 0).busy = true := by
  decide +kernel

/-! ### The invariants -/

/-- The block with one symbol of `rowA` in: a good state. -/
theorem witness_inv_manch : (decodingA 1 0).Inv where
  rows_wf := by decide +kernel
  numRows_le := by decide +kernel
  rowIdx_le := by decide +kernel
  symCnt_le := by decide
  bitPos_le := by decide
  valid := by decide
  result := by unfold State.resultLegal; decide
  scan := by decide
  chosen := by decide +kernel
  clean := by decide
  grid := by decide
  full := by decide
  checked := by decide

/-- And its registers hold what was decoded so far: the one bit 0. -/
theorem witness_tracks_manch : (decodingA 1 0).Tracks where
  skipped := by intro _ r hr; cases hr
  preamble := by decide +kernel
  decoding := fun _ => ⟨[false], by decide +kernel, rfl, rfl⟩
  scrambled := fun h => by cases h
  plain := fun h => by rcases h with h | h <;> cases h

/-- A block that holds a checked payload at SLICE: a good state. -/
theorem witness_inv_slice :
    { oneRow .slice rowA with sr := 0x5A2C0123ABCDEF, symCnt := 56, bitPos := 137 }.Inv where
  rows_wf := by decide +kernel
  numRows_le := by decide +kernel
  rowIdx_le := by decide +kernel
  symCnt_le := by decide
  bitPos_le := by decide
  valid := by decide
  result := by unfold State.resultLegal; decide
  scan := by decide
  chosen := by decide +kernel
  clean := by decide
  grid := by decide
  full := by decide
  checked := by decide +kernel

/-- A loaded block in DONE after a success, START driven: a good state that is not busy. -/
theorem witness_inv_start : (driving ⟨false, true, none⟩
    { oneRow .done rowA with sr := 0x5A2C0123ABCDEF, status := .success, msgValid := true }).Inv where
  rows_wf := by decide +kernel
  numRows_le := by decide +kernel
  rowIdx_le := by decide +kernel
  symCnt_le := by decide
  bitPos_le := by decide
  valid := by decide
  result := by unfold State.resultLegal; decide
  scan := by decide
  chosen := by decide
  clean := by decide
  grid := by decide
  full := by decide
  checked := by decide +kernel

theorem witness_InvocationRefinesFunction : ∃ s : State, s.Inv ∧ s.busy = false ∧ s.currentInput.start = true ∧
    ∀ i ∈ s.inputs, i.rst = false :=
  ⟨_, witness_inv_start, by decide, by decide, by decide⟩

theorem witness_StepKeepsLegalRegisters : ∃ s t : State, s.Inv ∧ step s = .next t ∧ t.symCnt = 2 := by
  obtain ⟨t, h, ht⟩ := next_of_after (o := step (decodingA 1 0)) (f := State.symCnt) (a := 2) (by decide +kernel)
  exact ⟨_, t, witness_inv_manch, h, ht⟩

theorem witness_StepKeepsPayloadTracking : ∃ s t : State, s.Inv ∧ s.Tracks ∧ step s = .next t ∧ t.sr = 1 := by
  obtain ⟨t, h, ht⟩ := next_of_after (o := step (decodingA 1 0)) (f := State.sr) (a := 1) (by decide +kernel)
  exact ⟨_, t, witness_inv_manch, witness_tracks_manch, h, ht⟩

theorem witness_GoodStateNeverStops : ∃ s : State, s.Inv ∧ s.stage = .slice := ⟨_, witness_inv_slice, rfl⟩

theorem witness_RowBufferConstantWhileBusy : ∃ s t : State, s.busy = true ∧ s.currentInput.rst = false ∧
    step s = .next t ∧ s.inputs ≠ [] := by
  obtain ⟨t, h, -⟩ := next_of_after (o := step (driving ⟨false, true, some (.loadRow 0 [])⟩ (decodingA 1 0)))
    (f := State.symCnt) (a := 2) (by decide +kernel)
  exact ⟨_, t, by decide, by decide, h, by decide⟩

theorem witness_NoResultWhileBusy : ∃ s t : State, s.Inv ∧ step s = .next t ∧ t.busy = true := by
  obtain ⟨t, h, ht⟩ := next_of_after (o := step (decodingA 1 0)) (f := State.busy) (a := true) (by decide +kernel)
  exact ⟨_, t, witness_inv_manch, h, ht⟩

/-! ### Encodings and the fetch -/

theorem witness_DecodeOfEncode : (Instr.loadrow (2 ^ Config.rowW - 1) (zeros (2 ^ Config.lenW - 1))).wellFormed = true ∧
    (Instr.decode .slice).wellFormed = true ∧ (Instr.frameFirst true 5 (zeros 33)).wellFormed = true := by
  refine ⟨by simp [Instr.wellFormed, zeros], by decide, by decide⟩

theorem witness_EncodeOfDecode : decode (bare .hostIn [true, true]) = .ok (.reset true) := by decide

theorem witness_StepRunsDecodedOperations :
    (driving ⟨true, true, none⟩ State.reset).currentInput.rst = true ∧
    decode ⟨.hostIn, [true, true], .none⟩ = .ok (.reset true) ∧
    (decodingA 1 0).currentInput = ⟨false, false, none⟩ ∧
    decode ⟨.stage, bitsMsb 3 (decodingA 1 0).stage.code.toNat, .none⟩ = .ok .manch ∧
    (driving ⟨false, true, none⟩ State.reset).currentInput = ⟨false, true, none⟩ ∧
    decode ⟨.hostIn, [false, true], .none⟩ = .ok .start ∧
    (driving ⟨false, false, some (.setNRows 1)⟩ State.reset).currentInput = ⟨false, false, some (.setNRows 1)⟩ ∧
    (driving ⟨false, true, some (.setNRows 1)⟩ State.reset).currentInput = ⟨false, true, some (.setNRows 1)⟩ ∧
    decode ⟨.stage, bitsMsb 3 State.reset.stage.code.toNat, .none⟩ = .ok .idleWait := by decide +kernel

end Sys2Proof.Tests
end

/-! PROOFS. The statements of 10_state.md: the values after reset, the status codes run by themselves, and the two
invariants that every step keeps. -/

namespace Sys2Proof.Machine

/-! ## What the stage operations can do -/

/-- All CLASSIFY can do (40_classifier.md R131). -/
theorem execClassify_cases {s t : State} (h : execClassify s = .next t) :
    t = s.raiseCause .noRowInBand ∨
    (s.rowIdx < s.numRows ∧ ∃ retx, bandOf (s.rowLen s.rowIdx) = some retx ∧ t = s.chooseRow retx) ∨
    (s.rowIdx < s.numRows ∧ bandOf (s.rowLen s.rowIdx) = none ∧ t = s.skipRow) := by
  unfold execClassify at h
  split at h
  · cases h; exact .inl rfl
  · rename_i hlt
    have hlt : s.rowIdx < s.numRows := by omega
    obtain ⟨-, rfl⟩ := withRow_eq_next h
    cases hb : bandOf (s.rowAt s.rowIdx).length with
    | some retx => exact .inr (.inl ⟨hlt, retx, hb, by simp [State.classifyLength, hb]⟩)
    | none => exact .inr (.inr ⟨hlt, hb, by simp [State.classifyLength, hb]⟩)

/-- The search from offset 0 answers 0 only for a row that begins with the pattern (41_locator.md R142). -/
theorem take_eq_of_search_zero {row pat : Bits} (h : search row 0 pat = some 0) : row.take pat.length = pat := by
  rcases searchFrom_spec row pat (row.length + 1 - (0 + pat.length)) 0 with ⟨k, hk, -, -, hm, -⟩ | ⟨hk, -⟩
  · cases hk.symm.trans h
    simpa using (matchesAt_iff.1 hm).2
  · cases hk.symm.trans h

/-- All LOCATE can do (41_locator.md R141). -/
theorem execLocate_cases {s t : State} (h : execLocate s = .next t) :
    (s.chosenRow.take (preambleBitLength s.isRetx) = patternBits s.isRetx ∧ t = s.located) ∨
    t = s.raiseCause .preambleNotAt0 := by
  obtain ⟨-, rfl⟩ := withRow_eq_next h
  unfold State.locateOn
  split
  · rename_i hs
    exact .inl ⟨by simpa [patternBits_length, State.chosenRow] using take_eq_of_search_zero hs, rfl⟩
  · exact .inr rfl

/-- All MANCH can do (42_manchester.md R158). -/
theorem execManch_cases {s t : State} (h : execManch s = .next t) :
    (56 ≤ s.symCnt ∧ t = s.goto .descr) ∨
    (s.symCnt < 56 ∧ ∃ b, (symbolAt s.chosenRow s.bitPos).bind Symbol.dataBit = some b ∧ t = s.acceptBit b) ∨
    t = s.raiseCause .shortManchester := by
  unfold execManch at h
  rw [nSym_eq] at h
  split at h
  · cases h; exact .inl ⟨‹_›, rfl⟩
  · have hlt : s.symCnt < 56 := by omega
    obtain ⟨-, rfl⟩ := withRow_eq_next h
    rcases State.msymOn_cases s.chosenRow hlt with ⟨b, hb, e⟩ | ⟨-, e⟩
    · exact .inr (.inl ⟨hlt, b, hb, e⟩)
    · exact .inr (.inr e)

/-- All FOLD can do (44_checksum.md R176). -/
theorem execFold_cases {s t : State} (h : execFold s = .next t) :
    (foldNibble s.sr = 0 ∧ t = s.goto .slice) ∨ t = s.raiseCause .checksumNonzero := by
  unfold execFold at h
  split at h <;> cases h
  · exact .inl ⟨‹_›, rfl⟩
  · exact .inr rfl

/-! ## What every step keeps -/

/-- All a command on the write port can do: it is ignored, or the block is not busy and the command is in range
(20_memory.md R66, R67, R73). -/
theorem exec_hostWrite_cases {w : HostWrite} {s u : State} (h : exec w.instr s = .next u) :
    u = s ∨
    (s.busy = false ∧ ∃ r bits, r < Config.maxRows ∧ bits.length ≤ Config.maxRowBits ∧ u = s.writeRow r bits) ∨
    (s.busy = false ∧ ∃ n ≤ Config.maxRows, u = s.writeNumRows n) := by
  cases w with
  | loadRow r bits =>
    obtain rfl : s.loadRow r bits = u := by cases h; rfl
    rcases State.loadRow_cases r bits s with ⟨hb, hr, hlen, e⟩ | e
    · exact .inr (.inl ⟨hb, r, bits, hr, hlen, e⟩)
    · exact .inl e
  | setNRows n =>
    obtain rfl : s.setNumRows n = u := by cases h; rfl
    rcases State.setNumRows_cases n s with ⟨hb, hn, e⟩ | e
    · exact .inr (.inr ⟨hb, n, hn, e⟩)
    · exact .inl e

/-- The updates a step is made of keep `P`. -/
structure KeptByUpdates (P : State → Prop) : Prop where
  resetAll : ∀ s, P s → P s.resetAll
  popInput : ∀ s, P s → P s.popInput
  writeRow : ∀ s r bits, s.busy = false → r < Config.maxRows → bits.length ≤ Config.maxRowBits → P s →
    P (s.writeRow r bits)
  writeNumRows : ∀ s n, s.busy = false → n ≤ Config.maxRows → P s → P (s.writeNumRows n)
  startClear : ∀ s, s.busy = false → P s → P s.startClear
  stageStep : ∀ s t, P s → stageStep s = .next t → P t

/-- What the updates keep, the step keeps: the analysis of the step, made once for every invariant. -/
theorem KeptByUpdates.step {P : State → Prop} (hP : KeptByUpdates P) {s t : State} (hs : P s)
    (h : step s = .next t) : P t := by
  rcases step_cases h with ⟨-, rfl⟩ | ⟨-, u, v, hu, hv, ht⟩
  · exact hP.resetAll _ (hP.popInput s hs)
  have hpop := hP.popInput s hs
  have hPu : u.stage = s.stage ∧ P u := by
    rcases hu with rfl | ⟨w, -, hw⟩
    · exact ⟨rfl, hpop⟩
    · rcases exec_hostWrite_cases hw with rfl | ⟨hb, r, bits, hr, hlen, rfl⟩ | ⟨hb, n, hn, rfl⟩
      · exact ⟨rfl, hpop⟩
      · exact ⟨rfl, hP.writeRow _ r bits hb hr hlen hpop⟩
      · exact ⟨rfl, hP.writeNumRows _ n hb hn hpop⟩
  obtain ⟨hstage, hPu⟩ := hPu
  have hPv : P v := by
    rcases hv with rfl | rfl
    · exact hPu
    · cases hb : u.busy with
      | true => rwa [State.acceptStart_busy hb]
      | false => rw [State.acceptStart_free hb]; exact hP.startClear u hb hPu
  rcases exec_stageInstr_after hstage hv with e | ⟨-, e⟩ <;> rw [e] at ht
  · exact hP.stageStep v t hPv ht
  · cases ht; exact hPv

/-! ## The legal registers -/

/-- The data field starts at offset 25 or 65 (00_scope.md R4). -/
theorem dataStartBit_le (b : Bool) : dataStartBit b ≤ 65 := by
  cases b <;> decide

/-- Outside DONE the only legal result is (NONE, 0). -/
theorem resultLegal_iff_of_ne_done {s : State} (hs : s.stage ≠ .done) :
    s.resultLegal ↔ s.status = .none ∧ s.failStage = 0 := by
  simp [State.resultLegal, hs]

/-- The pair every cause leaves is legal in DONE (60_exceptions.md R235). -/
theorem resultLegal_raiseCause (c : Cause) (s : State) : (s.raiseCause c).resultLegal := by
  cases c <;> simp [State.resultLegal, Cause.failure, Failure.status, Cause.stage, Stage.code]

section
variable {s : State} (h : s.Inv)
include h

/-- Before DONE no invocation has succeeded. -/
theorem State.Inv.status_ne_success (hs : s.stage ≠ .done) : s.status ≠ .success := by
  have hnone := ((resultLegal_iff_of_ne_done hs).1 h.result).1
  simp [hnone]

/-- The legal result of a running stage is legal in every other stage but DONE. -/
theorem State.Inv.resultLegal_running {t : State} (hs : s.stage ≠ .done) (ht : t.stage ≠ .done)
    (hstatus : t.status = s.status) (hfail : t.failStage = s.failStage) : t.resultLegal := by
  rw [resultLegal_iff_of_ne_done ht, hstatus, hfail]
  exact (resultLegal_iff_of_ne_done hs).1 h.result

theorem inv_popInput : s.popInput.Inv := { h with }

theorem inv_writeRow {r : Nat} {bits : Bits} (hb : s.busy = false) (hr : r < Config.maxRows)
    (hlen : bits.length ≤ Config.maxRowBits) : (s.writeRow r bits).Inv :=
  { h with
    rows_wf := Memory.wf_write h.rows_wf hr hlen
    chosen := by rcases busy_eq_false.1 hb with e | e <;> simp [e, rowChosen] }

theorem inv_writeNumRows {n : Nat} (hb : s.busy = false) (hn : n ≤ Config.maxRows) : (s.writeNumRows n).Inv :=
  { h with
    numRows_le := hn
    scan := by rcases busy_eq_false.1 hb with e | e <;> simp [e]
    chosen := by rcases busy_eq_false.1 hb with e | e <;> simp [e, rowChosen] }

theorem inv_startClear : s.startClear.Inv :=
  { h with
    rowIdx_le := Nat.zero_le _
    symCnt_le := Nat.zero_le _
    bitPos_le := Nat.zero_le _
    valid := by simp
    result := (resultLegal_iff_of_ne_done (by simp)).2 ⟨rfl, rfl⟩
    scan := fun _ => Nat.zero_le _
    chosen := by simp [rowChosen]
    clean := by simp
    grid := by simp
    full := by simp [symbolsIn]
    checked := by simp }

theorem inv_raiseCause (c : Cause) : (s.raiseCause c).Inv :=
  { h with
    valid := by simp [c.failure_status_ne_success]
    result := resultLegal_raiseCause c s
    scan := by simp
    chosen := by simp [rowChosen]
    clean := by simp
    grid := by simp
    full := by simp [symbolsIn]
    checked := by simp [c.failure_status_ne_success] }

theorem inv_chooseRow (hs : s.stage = .classify) (hlt : s.rowIdx < s.numRows) {retx : Bool}
    (hband : bandOf (s.rowLen s.rowIdx) = some retx) : (s.chooseRow retx).Inv :=
  { h with
    result := h.resultLegal_running (by simp [hs]) (by simp) rfl rfl
    scan := by simp
    chosen := fun _ => ⟨hlt, hband⟩
    clean := fun _ => h.clean (.inl hs)
    grid := by simp
    full := by simp [symbolsIn]
    checked := by simp [h.status_ne_success, hs] }

theorem inv_skipRow (hs : s.stage = .classify) (hlt : s.rowIdx < s.numRows) : s.skipRow.Inv :=
  { h with
    rowIdx_le := Nat.le_trans hlt h.numRows_le
    scan := fun _ => hlt
    chosen := by simp [hs, rowChosen] }

theorem inv_located (hs : s.stage = .locate) : s.located.Inv :=
  { h with
    symCnt_le := Nat.zero_le _
    bitPos_le := Nat.le_trans (dataStartBit_le s.isRetx) (by decide)
    result := h.resultLegal_running (by simp [hs]) (by simp) rfl rfl
    scan := by simp
    chosen := fun _ => h.chosen (by simp [hs, rowChosen])
    clean := by simp
    grid := by simp
    full := by simp [symbolsIn]
    checked := by simp [h.status_ne_success, hs] }

theorem inv_acceptBit (hs : s.stage = .manch) (hlt : s.symCnt < 56) (b : Bool) : (s.acceptBit b).Inv :=
  have hgrid : s.bitPos + 2 = dataStartBit s.isRetx + 2 * (s.symCnt + 1) := by
    rw [h.grid hs]; omega
  { h with
    symCnt_le := hlt
    bitPos_le := by
      have hstart := dataStartBit_le s.isRetx
      simp only [State.acceptBit_bitPos]
      omega
    clean := by simp [hs]
    grid := fun _ => hgrid
    full := by simp [hs, symbolsIn]
    checked := by simp [h.status_ne_success, hs] }

/-- MANCH leaves with all 56 symbols in (42_manchester.md R158). -/
theorem inv_goto_descr (hs : s.stage = .manch) (hfull : 56 ≤ s.symCnt) : (s.goto .descr).Inv :=
  have hcnt : s.symCnt = 56 := Nat.le_antisymm h.symCnt_le hfull
  { h with
    result := h.resultLegal_running (by simp [hs]) (by simp) rfl rfl
    scan := by simp
    chosen := fun _ => h.chosen (by simp [hs, rowChosen])
    clean := by simp
    grid := by simp
    full := fun _ => ⟨hcnt, by simpa [hcnt] using h.grid hs⟩
    checked := by simp [h.status_ne_success, hs] }

theorem inv_descrambled (hs : s.stage = .descr) (v : Payload) : ((s.setPayload v).goto .fold).Inv :=
  { h with
    result := h.resultLegal_running (by simp [hs]) (by simp) rfl rfl
    scan := by simp
    chosen := fun _ => h.chosen (by simp [hs, rowChosen])
    clean := by simp
    grid := by simp
    full := fun _ => h.full (by simp [hs, symbolsIn])
    checked := by simp [h.status_ne_success, hs] }

/-- FOLD passes only a payload whose fold is 0 (44_checksum.md R176). -/
theorem inv_goto_slice (hs : s.stage = .fold) (hfold : foldNibble s.sr = 0) : (s.goto .slice).Inv :=
  { h with
    result := h.resultLegal_running (by simp [hs]) (by simp) rfl rfl
    scan := by simp
    chosen := fun _ => h.chosen (by simp [hs, rowChosen])
    clean := by simp
    grid := by simp
    full := fun _ => h.full (by simp [hs, symbolsIn])
    checked := fun _ => hfold }

theorem inv_publish (hs : s.stage = .slice) : s.publish.Inv :=
  { h with
    valid := by simp
    result := by simp [State.resultLegal]
    scan := by simp
    chosen := by simp [rowChosen]
    clean := by simp
    grid := by simp
    full := by simp [symbolsIn]
    checked := fun _ => h.checked (.inl hs) }

theorem inv_stageStep {t : State} (ht : stageStep s = .next t) : t.Inv := by
  unfold stageStep at ht
  cases hs : s.stage <;> simp only [hs] at ht
  case idle => cases ht; exact h
  case classify =>
    rcases execClassify_cases ht with rfl | ⟨hlt, retx, hband, rfl⟩ | ⟨hlt, -, rfl⟩
    · exact inv_raiseCause h _
    · exact inv_chooseRow h hs hlt hband
    · exact inv_skipRow h hs hlt
  case locate =>
    rcases execLocate_cases ht with ⟨-, rfl⟩ | rfl
    · exact inv_located h hs
    · exact inv_raiseCause h _
  case manch =>
    rcases execManch_cases ht with ⟨hfull, rfl⟩ | ⟨hlt, b, -, rfl⟩ | rfl
    · exact inv_goto_descr h hs hfull
    · exact inv_acceptBit h hs hlt b
    · exact inv_raiseCause h _
  case descr => cases ht; exact inv_descrambled h hs _
  case fold =>
    rcases execFold_cases ht with ⟨hfold, rfl⟩ | rfl
    · exact inv_goto_slice h hs hfold
    · exact inv_raiseCause h _
  case slice => cases ht; exact inv_publish h hs
  case done => cases ht; exact h

end

/-- The registers after reset are legal whatever the host drives and however many resets there have been. -/
theorem inv_reset_with (inputs : List HostInput) (resets : Nat) :
    { State.reset with inputs := inputs, resets := resets }.Inv where
  rows_wf := reset_memory_wf
  numRows_le := Nat.zero_le _
  rowIdx_le := Nat.zero_le _
  symCnt_le := Nat.zero_le _
  bitPos_le := Nat.zero_le _
  valid := by simp [State.reset]
  result := (resultLegal_iff_of_ne_done (by simp [State.reset])).2 ⟨rfl, rfl⟩
  scan := by simp [State.reset]
  chosen := by simp [State.reset, rowChosen]
  clean := by simp [State.reset]
  grid := by simp [State.reset]
  full := by simp [State.reset, symbolsIn]
  checked := by simp [State.reset]

theorem inv_keptByUpdates : KeptByUpdates State.Inv where
  resetAll s _ := inv_reset_with s.inputs (s.resets + 1)
  popInput _ h := inv_popInput h
  writeRow _ _ _ hb hr hlen h := inv_writeRow h hb hr hlen
  writeNumRows _ _ hb hn h := inv_writeNumRows h hb hn
  startClear _ _ h := inv_startClear h
  stageStep _ _ h ht := inv_stageStep h ht

/-- Settles O52: every update a step is made of keeps the legal registers. -/
theorem stepKeepsLegalRegisters : Obligations.StepKeepsLegalRegisters :=
  fun _ _ h ht => inv_keptByUpdates.step h ht

/-! ## What the registers hold of the rows -/

/-- A block that is not busy holds nothing of the rows. -/
theorem tracks_of_not_busy {s : State} (hb : s.busy = false) : s.Tracks := by
  rcases busy_eq_false.1 hb with e | e <;> constructor <;> simp [hb, e, patternFound]

/-- A failure ends the invocation. -/
theorem tracks_raiseCause (c : Cause) (s : State) : (s.raiseCause c).Tracks :=
  tracks_of_not_busy rfl

/-- An accepted START has examined no row yet. -/
theorem tracks_startClear (s : State) : s.startClear.Tracks := by
  constructor <;> simp [patternFound]

section
variable {s : State} (h : s.Tracks)
include h

theorem tracks_popInput : s.popInput.Tracks := { h with }

theorem tracks_chooseRow (hs : s.stage = .classify) (retx : Bool) : (s.chooseRow retx).Tracks where
  skipped _ := h.skipped (by simp [busy_eq_true, hs])
  preamble := by simp [patternFound]
  decoding := by simp
  scrambled := by simp
  plain := by simp

theorem tracks_skipRow (hs : s.stage = .classify) (hband : bandOf (s.rowLen s.rowIdx) = none) :
    s.skipRow.Tracks where
  skipped _ r hr := by
    rcases Nat.lt_succ_iff_lt_or_eq.1 hr with hlt | rfl
    · exact h.skipped (by simp [busy_eq_true, hs]) r hlt
    · exact hband
  preamble := by simp [hs, patternFound]
  decoding := by simp [hs]
  scrambled := by simp [hs]
  plain := by simp [hs]

/-- MANCH begins with no bit decoded and `SR` zero. -/
theorem tracks_located (hs : s.stage = .locate) (hsr : s.sr = 0)
    (hpre : s.chosenRow.take (preambleBitLength s.isRetx) = patternBits s.isRetx) : s.located.Tracks where
  skipped _ := h.skipped (by simp [busy_eq_true, hs])
  preamble _ := hpre
  decoding _ := ⟨[], rfl, rfl, hsr⟩
  scrambled := by simp
  plain := by simp

/-- An accepted symbol is the next bit of the decode (42_manchester.md R153). -/
theorem tracks_acceptBit (hs : s.stage = .manch) {b : Bool}
    (hb : (symbolAt s.chosenRow s.bitPos).bind Symbol.dataBit = some b) : (s.acceptBit b).Tracks where
  skipped _ := h.skipped (by simp [busy_eq_true, hs])
  preamble _ := h.preamble (by simp [hs, patternFound])
  decoding _ := by
    obtain ⟨d, hd, hlen, hsr⟩ := h.decoding hs
    refine ⟨d ++ [b], ?_, by simp [hlen], by simp [packBits_append, hsr]⟩
    have hnext := manchesterDecode_succ hd hlen
    rw [hb] at hnext
    exact hnext
  scrambled := by simp [hs]
  plain := by simp [hs]

theorem tracks_goto_descr (hs : s.stage = .manch) (hcnt : s.symCnt = 56) : (s.goto .descr).Tracks where
  skipped _ := h.skipped (by simp [busy_eq_true, hs])
  preamble _ := h.preamble (by simp [hs, patternFound])
  decoding := by simp
  scrambled _ := by
    have hd := h.decoding hs
    rw [hcnt] at hd
    exact hd
  plain := by simp

theorem tracks_descrambled (hs : s.stage = .descr) : ((s.setPayload (descramble s.sr)).goto .fold).Tracks where
  skipped _ := h.skipped (by simp [busy_eq_true, hs])
  preamble _ := h.preamble (by simp [hs, patternFound])
  decoding := by simp
  scrambled := by simp
  plain _ := by
    obtain ⟨d, hd, hlen, hsr⟩ := h.scrambled hs
    exact ⟨d, hd, hlen, congrArg descramble hsr⟩

theorem tracks_goto_slice (hs : s.stage = .fold) : (s.goto .slice).Tracks where
  skipped _ := h.skipped (by simp [busy_eq_true, hs])
  preamble _ := h.preamble (by simp [hs, patternFound])
  decoding := by simp
  scrambled := by simp
  plain _ := h.plain (.inl hs)

theorem tracks_stageStep (hi : s.Inv) {t : State} (ht : stageStep s = .next t) : t.Tracks := by
  unfold stageStep at ht
  cases hs : s.stage <;> simp only [hs] at ht
  case idle => cases ht; exact h
  case classify =>
    rcases execClassify_cases ht with rfl | ⟨-, retx, -, rfl⟩ | ⟨-, hband, rfl⟩
    · exact tracks_raiseCause _ s
    · exact tracks_chooseRow h hs retx
    · exact tracks_skipRow h hs hband
  case locate =>
    rcases execLocate_cases ht with ⟨hpre, rfl⟩ | rfl
    · exact tracks_located h hs (hi.clean (.inr hs)).1 hpre
    · exact tracks_raiseCause _ s
  case manch =>
    rcases execManch_cases ht with ⟨hfull, rfl⟩ | ⟨-, b, hb, rfl⟩ | rfl
    · exact tracks_goto_descr h hs (Nat.le_antisymm hi.symCnt_le hfull)
    · exact tracks_acceptBit h hs hb
    · exact tracks_raiseCause _ s
  case descr => cases ht; exact tracks_descrambled h hs
  case fold =>
    rcases execFold_cases ht with ⟨-, rfl⟩ | rfl
    · exact tracks_goto_slice h hs
    · exact tracks_raiseCause _ s
  case slice => cases ht; exact tracks_of_not_busy rfl
  case done => cases ht; exact h

end

/-- The good states: legal registers that hold what was decoded of the rows. -/
def State.Good (s : State) : Prop :=
  s.Inv ∧ s.Tracks

theorem good_keptByUpdates : KeptByUpdates State.Good where
  resetAll s h := ⟨inv_keptByUpdates.resetAll s h.1, tracks_of_not_busy rfl⟩
  popInput _ h := ⟨inv_popInput h.1, tracks_popInput h.2⟩
  writeRow _ _ _ hb hr hlen h := ⟨inv_writeRow h.1 hb hr hlen, tracks_of_not_busy hb⟩
  writeNumRows _ _ hb hn h := ⟨inv_writeNumRows h.1 hb hn, tracks_of_not_busy hb⟩
  startClear s _ h := ⟨inv_startClear h.1, tracks_startClear s⟩
  stageStep _ _ h ht := ⟨inv_stageStep h.1 ht, tracks_stageStep h.2 h.1 ht⟩

/-- Settles O53: every update a step is made of keeps the good states. -/
theorem stepKeepsPayloadTracking : Obligations.StepKeepsPayloadTracking :=
  fun _ _ hi h ht => (good_keptByUpdates.step ⟨hi, h⟩ ht).2

/-! ## Reset -/

/-- Every payload byte of the cleared shift register is 0. -/
theorem payloadByte_zero (i : Nat) : payloadByte 0 i = 0 := by
  simp [payloadByte]

/-- A row not loaded since reset reads as its free value (log 4). -/
theorem rowAt_of_rows_nil {s : State} (hrows : s.rows = []) (r : Nat) :
    s.rowAt r = (Config.unspecifiedRow s.resets r).take Config.maxRowBits := by
  simp [State.rowAt, hrows, Memory.read]

/-- Settles O1: the core registers and `num_rows` are written in `State.reset`; the payload bytes, the ports and the rows
are views of it. -/
theorem resetValues : Obligations.ResetValues := by
  unfold Obligations.ResetValues
  refine ⟨rfl, rfl, rfl, rfl, rfl, fun i _ => payloadByte_zero i, rfl, rfl, rfl, rfl, rfl, rfl, rfl,
    rowAt_of_rows_nil rfl, ?cfg⟩
  case cfg => exact ⟨rfl, rfl, rfl, rfl, rfl⟩

/-- Settles O51: the reset registers are legal, and an idle block holds nothing of the rows. -/
theorem resetIsGood : Obligations.ResetIsGood :=
  ⟨inv_reset_with [] 0, tracks_of_not_busy rfl⟩

/-! ## The status codes run by themselves -/

theorem failHere_of_raisedIn {f : Failure} {s : State} (h : f.raisedIn s.stage = true) :
    s.failHere f = s.raise f s.stage := by
  simp [State.failHere, h]

theorem failHere_of_not_raisedIn {f : Failure} {s : State} (h : f.raisedIn s.stage = false) :
    s.failHere f = s := by
  simp [State.failHere, h]

/-- A SanityFailure arises in CLASSIFY and LOCATE (60_exceptions.md R235). -/
theorem sanity_raisedIn_iff (st : Stage) : Failure.sanity.raisedIn st = true ↔ st = .classify ∨ st = .locate := by
  cases st <;> decide

/-- An IntegrityFailure arises in MANCH and FOLD (60_exceptions.md R235). -/
theorem integrity_raisedIn_iff (st : Stage) : Failure.integrity.raisedIn st = true ↔ st = .manch ∨ st = .fold := by
  cases st <;> decide

theorem exec_statusNone (s : State) : exec .statusNone s = .next (if s.done then s else s.clearResult) := rfl

theorem exec_statusSuccess (s : State) :
    exec .statusSuccess s = .next (if s.stage = .slice then s.publish else s) := rfl

theorem exec_statusSanityFailure (s : State) : exec .statusSanityFailure s = .next (s.failHere .sanity) := rfl

theorem exec_statusIntegrityFailure (s : State) :
    exec .statusIntegrityFailure s = .next (s.failHere .integrity) := rfl

/-- Settles O36: each status code, in the stages where it arises and in the others. -/
theorem statusCodesAreWrittenWhereTheyArise : Obligations.StatusCodesAreWrittenWhereTheyArise := by
  intro s
  refine ⟨fun h => ?noneRunning, fun h => ?noneDone, fun h => ?success, fun h => ?successElsewhere, fun h => ?sanity,
    fun h h' => ?sanityElsewhere, fun h => ?integrity, fun h h' => ?integrityElsewhere⟩
  case noneRunning => simp [exec_statusNone, State.done, h, State.clearResult]
  case noneDone => simp [exec_statusNone, State.done, h]
  case success => simp [exec_statusSuccess, h, State.publish]
  case successElsewhere => simp [exec_statusSuccess, h]
  case sanity =>
    rw [exec_statusSanityFailure, failHere_of_raisedIn ((sanity_raisedIn_iff _).2 h)]
    rfl
  case sanityElsewhere =>
    have hn : Failure.sanity.raisedIn s.stage = false := by
      simp [← Bool.not_eq_true, sanity_raisedIn_iff, h, h']
    rw [exec_statusSanityFailure, failHere_of_not_raisedIn hn]
  case integrity =>
    rw [exec_statusIntegrityFailure, failHere_of_raisedIn ((integrity_raisedIn_iff _).2 h)]
    rfl
  case integrityElsewhere =>
    have hn : Failure.integrity.raisedIn s.stage = false := by
      simp [← Bool.not_eq_true, integrity_raisedIn_iff, h, h']
    rw [exec_statusIntegrityFailure, failHere_of_not_raisedIn hn]

end Sys2Proof.Machine

/-! PROOFS. The statements of 20_memory.md: what LOADROW and SETNROWS write, that a busy block ignores both and leaves the
row buffer alone, and that loaded rows hide the free values of the row storage. -/

namespace Sys2Proof.Machine

/-! ## The row buffer under repeated writes and loaded rows -/

/-- A second write of a row replaces the first one entirely (20_memory.md R72). -/
@[simp] theorem Memory.write_write_same (m : Memory) (r : Nat) (a b : Bits) :
    Memory.write (Memory.write m r a) r b = Memory.write m r b := by
  induction m with
  | nil => simp [Memory.write]
  | cons e m ih =>
    obtain ⟨k, v⟩ := e
    rcases Nat.lt_trichotomy r k with hlt | rfl | hgt
    · simp [Memory.write, hlt]
    · simp [Memory.write]
    · simp [Memory.write, Nat.not_lt_of_gt hgt, Nat.ne_of_gt hgt, ih]

@[simp] theorem State.writeRow_writeRow_same (r : Nat) (a b : Bits) (s : State) :
    (s.writeRow r a).writeRow r b = s.writeRow r b := by
  simp [State.writeRow]

/-- A loaded row reads as what was loaded, whatever the count of resets (log 4). -/
theorem State.rowAt_of_read {s : State} {r : Nat} {bits : Bits} (h : Memory.read s.rows r = some bits) :
    s.rowAt r = bits := by
  simp [State.rowAt, h]

/-! ## LOADROW and SETNROWS, accepted and ignored -/

theorem exec_loadrow (r : Nat) (bits : Bits) (s : State) : exec (.loadrow r bits) s = .next (s.loadRow r bits) := rfl

theorem exec_setnrows (n : Nat) (s : State) : exec (.setnrows n) s = .next (s.setNumRows n) := rfl

section
variable {s : State} {r : Nat} {bits : Bits}

theorem State.loadRow_accepted
    (h : s.busy = false ∧ r < Config.maxRows ∧ bits.length ≤ Config.maxRowBits) :
    s.loadRow r bits = s.writeRow r bits := if_pos h

theorem State.loadRow_ignored
    (h : ¬(s.busy = false ∧ r < Config.maxRows ∧ bits.length ≤ Config.maxRowBits)) :
    s.loadRow r bits = s := if_neg h

end

theorem State.setNumRows_accepted {s : State} {n : Nat} (h : s.busy = false ∧ n ≤ Config.maxRows) :
    s.setNumRows n = s.writeNumRows n := if_pos h

theorem State.setNumRows_ignored {s : State} {n : Nat} (h : ¬(s.busy = false ∧ n ≤ Config.maxRows)) :
    s.setNumRows n = s := if_neg h

/-- An earlier LOADROW of a row does not show after one of an accepted length, be either of them accepted or ignored:
both have the same conditions but for the length. -/
theorem State.loadRow_loadRow_same {r : Nat} {b : Bits} (a : Bits) (s : State) (hb : b.length ≤ Config.maxRowBits) :
    (s.loadRow r a).loadRow r b = s.loadRow r b := by
  rcases State.loadRow_cases r a s with ⟨hfree, hr, -, e⟩ | e <;> rw [e]
  rw [State.loadRow_accepted (s := s.writeRow r a) ⟨hfree, hr, hb⟩, State.loadRow_accepted ⟨hfree, hr, hb⟩,
    State.writeRow_writeRow_same]

/-- Settles O9. -/
theorem setnrowsWritesCount : Obligations.SetnrowsWritesCount := by
  intro n s
  refine ⟨fun h => ?accepted, fun h => ?ignored⟩
  case accepted =>
    rw [exec_setnrows, State.setNumRows_accepted h]
    exact ⟨_, rfl, rfl, fun r => by rw [State.rowAt_writeNumRows]⟩
  case ignored => rw [exec_setnrows, State.setNumRows_ignored h]

/-- Settles O7: an accepted LOADROW is a row write, and a row reads after it as the row laws say. -/
theorem loadrowWritesOneRow : Obligations.LoadrowWritesOneRow := by
  intro r bits s
  refine ⟨fun h => ?accepted, fun h => ?ignored⟩
  case accepted =>
    rw [exec_loadrow, State.loadRow_accepted h]
    refine ⟨_, rfl, rfl, ?len, fun i _ => ?bit, fun r' hr' => ?others⟩
    case len => rw [State.rowLen, State.rowAt_writeRow_same]
    case bit => rw [State.rowBit, State.rowAt_writeRow_same]
    case others => simp only [State.rowLen, State.rowBit, State.rowAt_writeRow_other bits s hr', implies_true, and_self]
  case ignored => rw [exec_loadrow, State.loadRow_ignored h]

/-- Settles O8. -/
theorem laterLoadrowReplaces : Obligations.LaterLoadrowReplaces := by
  intro r a b s t u hb ht hu
  obtain rfl : s.loadRow r a = t := by cases ht; rfl
  rwa [exec_loadrow, State.loadRow_loadRow_same a s hb, ← exec_loadrow] at hu

/-! ## The step of a busy block -/

/-- A busy block ignores either command of the write port (20_memory.md R73). -/
theorem exec_hostWrite_busy {s : State} (w : HostWrite) (hb : s.busy = true) : exec w.instr s = .next s := by
  cases w with
  | loadRow r bits => rw [HostWrite.instr, exec_loadrow, State.loadRow_busy r bits hb]
  | setNRows n => rw [HostWrite.instr, exec_setnrows, State.setNumRows_busy n hb]

theorem exec_start_busy {s : State} (hb : s.busy = true) : exec .start s = .next s :=
  congrArg Host.Outcome.next (State.acceptStart_busy hb)

@[simp] theorem runAll_singleton (i : Instr) (s : State) : runAll [i] s = exec i s := by
  unfold runAll
  cases exec i s <;> rfl

/-- An operation that changes nothing drops out of the operations of a step. -/
theorem runAll_cons_of_next {i : Instr} {s : State} (is : List Instr) (h : exec i s = .next s) :
    runAll (i :: is) s = runAll is s := by
  rw [runAll, h, andThen_next]

theorem runAll_hostWrite_busy {s : State} (w : Option HostWrite) (is : List Instr) (hb : s.busy = true) :
    runAll (w.toList.map HostWrite.instr ++ is) s = runAll is s := by
  cases w with
  | none => rfl
  | some w => exact runAll_cons_of_next is (exec_hostWrite_busy w hb)

/-- With `rst` driven the step is RESET alone (70_reset_and_hazards.md R260). -/
theorem step_of_rst {s : State} (hr : s.currentInput.rst = true) : step s = .next s.popInput.resetAll := by
  simp [step, State.fetch, hr, hostInInstr, exec, execReset]

/-- A busy block without reset only runs the operation of its stage: the write port and `start` have no effect
(20_memory.md R73, 46_sequencer.md R213). -/
theorem step_of_busy {s : State} (hb : s.busy = true) (hr : s.currentInput.rst = false) :
    step s = stageStep s.popInput := by
  have hpop : s.popInput.busy = true := hb
  have hstage : exec (stageInstr s.stage) s.popInput = stageStep s.popInput := exec_stageInstr s.popInput
  unfold step State.fetch
  cases hs : s.currentInput.start <;> simp only [hr, hostInInstr]
  case false => rw [runAll_hostWrite_busy _ _ hpop, runAll_singleton, hstage]
  case true =>
    rw [runAll_hostWrite_busy _ _ hpop, runAll_cons_of_next _ (exec_start_busy hpop), runAll_singleton, hstage]

/-- Settles O5: with and without a command on the write port the step is RESET, or the stage step on the same state. -/
theorem stepIgnoresWritesWhileBusy : Obligations.StepIgnoresWritesWhileBusy := by
  refine ⟨fun s r n bits hb => ?commands, fun s rst start w rest hb => ?step⟩
  case commands => exact ⟨exec_hostWrite_busy (.loadRow r bits) hb, exec_hostWrite_busy (.setNRows n) hb⟩
  case step =>
    cases rst with
    | true =>
      have hreset (write : Option HostWrite) : step { s with inputs := ⟨true, start, write⟩ :: rest } =
          .next { s with inputs := rest }.resetAll := step_of_rst rfl
      rw [hreset, hreset]
    | false =>
      have hstage (write : Option HostWrite) : step { s with inputs := ⟨false, start, write⟩ :: rest } =
          stageStep { s with inputs := rest } := step_of_busy hb rfl
      rw [hstage, hstage]

/-- Settles O55: a busy block only runs a stage operation, and none of them writes the row buffer. -/
theorem rowBufferConstantWhileBusy : Obligations.RowBufferConstantWhileBusy := by
  intro s t hb hr h
  rw [step_of_busy hb hr] at h
  obtain ⟨hrows, hnum, -, hresets, -⟩ := stageStep_frame h
  exact ⟨hrows, hnum, hresets, State.rowAt_congr hrows hresets⟩

/-! ## Loaded rows -/

/-- Settles O44: row by row, a loaded row reads the same in both states. -/
theorem loadedRowsLeaveNothingFree : Obligations.LoadedRowsLeaveNothingFree := by
  intro s s' hloaded hnum hrows
  have hrow : ∀ r < s.numRows, s'.rowAt r = s.rowAt r := fun r hr => by
    obtain ⟨bits, hread⟩ := Option.isSome_iff_exists.1 (hloaded r hr)
    have hread' : Memory.read s'.rows r = some bits := by rw [hrows, hread]
    rw [State.rowAt_of_read hread, State.rowAt_of_read hread']
  unfold State.rowSet
  rw [hnum]
  exact List.map_congr_left fun r hr => hrow r (List.mem_range.1 hr)

end Sys2Proof.Machine

/-! PROOFS. The statements of 30_encoding.md on code words: the decoder and the encoder are inverse to each other
(R90, R95, R97, R99 to R101, R103), and words of the table written out. -/

namespace Sys2Proof

/-! ## Bit strings and the numbers they stand for -/

theorem natMsb_lt (b : Bits) : natMsb b < 2 ^ b.length := by
  induction b with
  | nil => simp [natMsb]
  | cons x b ih =>
    have hx : x.toNat * 2 ^ b.length ≤ 1 * 2 ^ b.length := Nat.mul_le_mul_right _ x.toNat_le
    rw [natMsb, List.length_cons, Nat.pow_succ]
    omega

/-- Reading back the `n` low bits of `w` gives `w` modulo `2 ^ n`. -/
theorem natMsb_bitsMsb (n w : Nat) : natMsb (bitsMsb n w) = w % 2 ^ n := by
  induction n with
  | zero => simp [bitsMsb, natMsb, Nat.mod_one]
  | succ n ih =>
    rw [bitsMsb, natMsb, ih, Laws.bitsMsb_length, Nat.mod_pow_succ, Nat.toNat_testBit]
    ring

/-- Bits at or above `2 ^ m` do not show among the `n ≤ m` low bits. -/
theorem bitsMsb_two_pow_mul_add {n m : Nat} (a w : Nat) (hw : w < 2 ^ m) (hn : n ≤ m) :
    bitsMsb n (2 ^ m * a + w) = bitsMsb n w := by
  induction n with
  | zero => rfl
  | succ n ih =>
    have hbit : (2 ^ m * a + w).testBit n = w.testBit n := by
      rw [Nat.testBit_two_pow_mul_add a hw, if_pos (by omega)]
    rw [bitsMsb, bitsMsb, hbit, ih (by omega)]

/-- A bit string is the low bits of the number it stands for. -/
theorem bitsMsb_natMsb (b : Bits) : bitsMsb b.length (natMsb b) = b := by
  induction b with
  | nil => rfl
  | cons x b ih =>
    have hlt := natMsb_lt b
    have hbit : (2 ^ b.length * x.toNat + natMsb b).testBit b.length = x := by
      rw [Nat.testBit_two_pow_mul_add _ hlt, if_neg (by omega)]
      cases x <;> simp
    rw [natMsb, Nat.mul_comm, List.length_cons, bitsMsb, hbit, bitsMsb_two_pow_mul_add _ _ hlt le_rfl, ih]

/-- Reading a field after writing it. -/
@[simp] theorem ofNat_natMsb_bitsMsb {n : Nat} (v : BitVec n) : BitVec.ofNat n (natMsb (bitsMsb n v.toNat)) = v := by
  rw [natMsb_bitsMsb]
  apply BitVec.eq_of_toNat_eq
  simp

/-- Writing a field after reading it. -/
theorem bitsMsb_ofNat_natMsb {n : Nat} {b : Bits} (h : b.length = n) :
    bitsMsb n (BitVec.ofNat n (natMsb b)).toNat = b := by
  subst h
  rw [BitVec.toNat_ofNat, Nat.mod_eq_of_lt (natMsb_lt b), bitsMsb_natMsb]

@[simp] theorem natMsb_singleton_beq_one (x : Bool) : (natMsb [x] == 1) = x := by
  cases x <;> rfl

/-- A field and what follows it are what stands from the field on. -/
theorem take_append_drop_add (b : Bits) (i n : Nat) : (b.drop i).take n ++ b.drop (i + n) = b.drop i := by
  rw [← List.drop_drop, List.take_append_drop]

/-! ## Decoding what was encoded -/

theorem decode_eq_ok_iff {w : CodeWord} {i : Instr} :
    decode w = .ok i ↔ decodeCode w = .ok i ∧ i.wellFormed = true := by
  unfold decode
  cases h : decodeCode w with
  | error e => simp
  | ok j =>
    by_cases hj : j.wellFormed = true
    · simp only [hj, if_true, Except.ok.injEq, iff_self_and]
      rintro rfl
      exact hj
    · have hne : ¬(j = i ∧ i.wellFormed = true) := by
        rintro ⟨rfl, hi⟩
        exact hj hi
      simpa [hj] using hne

theorem decodeRow_frameFirst (x : Bool) (m : BitVec 112) (t : Bits) :
    decodeRow (patternBits false ++ x :: bitsMsb 112 m.toNat) t = .ok (.frameFirst x m t) := by
  simp [decodeRow, List.drop_append, List.drop_eq_nil_of_le]

theorem decodeRow_frameRetx (x : Bool) (m : BitVec 112) (t : Bits) :
    decodeRow (patternBits true ++ x :: bitsMsb 112 m.toNat) t = .ok (.frameRetx x m t) := by
  simp [decodeRow, List.drop_append, List.drop_eq_nil_of_le]

theorem decodePayload56_payload (seed : Byte) (control checksum : Nibble) (counter : BitVec 16) (address : BitVec 24) :
    decodePayload56 (bitsMsb 8 seed.toNat ++ (bitsMsb 4 control.toNat ++ (bitsMsb 4 checksum.toNat ++
      (bitsMsb 16 counter.toNat ++ bitsMsb 24 address.toNat)))) =
        .ok (.payload seed control checksum counter address) := by
  simp [decodePayload56, List.drop_append, List.drop_eq_nil_of_le]

/-- DECODE's code is the code of a stage it runs through. -/
theorem decodeComposite_decode {s : Stage} (h : s.runs = true) :
    decodeComposite (bitsMsb 3 s.code.toNat) = .ok (.decode s) := by
  cases s with
  | idle => cases h
  | done => cases h
  | _ => rfl

theorem decodeCode_encode {i : Instr} (h : i.wellFormed = true) : decodeCode (encode i) = .ok i := by
  cases i with
  | loadrow r bits => simp [encode, decodeCode, decodeHostWr]
  | search r startBit pat => simp [encode, decodeCode, decodePrimitive]
  | decode s => exact decodeComposite_decode h
  | frameFirst x m t => exact decodeRow_frameFirst x m t
  | frameRetx x m t => exact decodeRow_frameRetx x m t
  | payload seed control checksum counter address =>
    exact decodePayload56_payload seed control checksum counter address
  | _ => rfl

/-- Settles O57: the code bits and operands give the instruction back, and it passes the field check. -/
theorem decodeOfEncode : Obligations.DecodeOfEncode :=
  fun _ h => decode_eq_ok_iff.2 ⟨decodeCode_encode h, h⟩

/-! ## Encoding what was decoded -/

/-- The bits of a frame are its first `p` bits, the unexamined bit and the 112 half-bits, as the decoder reads them. -/
theorem frame_code_eq {code : Bits} (p : Nat) (h : code.length = p + 113) :
    code.take p ++ (natMsb ((code.drop p).take 1) == 1) ::
      bitsMsb 112 (BitVec.ofNat 112 (natMsb (code.drop (p + 1)))).toNat = code := by
  rw [bitsMsb_ofNat_natMsb (by rw [List.length_drop]; omega)]
  obtain ⟨x, rest, hx⟩ := List.exists_cons_of_length_pos (l := code.drop p) (by rw [List.length_drop]; omega)
  have hrest : code.drop (p + 1) = rest := by rw [← List.drop_drop, hx]; rfl
  rw [hrest, hx, List.take_succ_cons, List.take_zero, natMsb_singleton_beq_one, ← hx, List.take_append_drop]

/-- The 56 bits of a payload are the five fields as the decoder reads them. -/
theorem payload_code_eq {code : Bits} (h : code.length = 56) :
    bitsMsb 8 (BitVec.ofNat 8 (natMsb (code.take 8))).toNat ++
      (bitsMsb 4 (BitVec.ofNat 4 (natMsb ((code.drop 8).take 4))).toNat ++
        (bitsMsb 4 (BitVec.ofNat 4 (natMsb ((code.drop 12).take 4))).toNat ++
          (bitsMsb 16 (BitVec.ofNat 16 (natMsb ((code.drop 16).take 16))).toNat ++
            bitsMsb 24 (BitVec.ofNat 24 (natMsb (code.drop 32))).toNat))) = code := by
  rw [bitsMsb_ofNat_natMsb (b := code.take 8) (by simp [h]),
    bitsMsb_ofNat_natMsb (b := (code.drop 8).take 4) (by simp [h]),
    bitsMsb_ofNat_natMsb (b := (code.drop 12).take 4) (by simp [h]),
    bitsMsb_ofNat_natMsb (b := (code.drop 16).take 16) (by simp [h]),
    bitsMsb_ofNat_natMsb (b := code.drop 32) (by simp [h]),
    take_append_drop_add code 16 16, take_append_drop_add code 12 4, take_append_drop_add code 8 4,
    List.take_append_drop]

section
variable {code : Bits} {ops : Operands} {i : Instr}

theorem encode_of_decodeStage (h : decodeStage code = .ok i) : encode i = bare .stage code := by
  unfold decodeStage at h
  split at h
  case h_1 b2 b1 b0 => cases h; cases b2 <;> cases b1 <;> cases b0 <;> rfl
  case h_2 => cases h

theorem encode_of_decodeHostIn (h : decodeHostIn code = .ok i) : encode i = bare .hostIn code := by
  unfold decodeHostIn at h
  split at h
  case h_1 rst start => cases rst <;> cases start <;> cases h <;> rfl
  case h_2 => cases h

theorem encode_of_decodeHostWr (h : decodeHostWr code ops = .ok i) : encode i = ⟨.hostWr, code, ops⟩ := by
  unfold decodeHostWr at h
  split at h
  case h_1 r len bits =>
    split at h <;> cases h
    subst len
    rfl
  all_goals cases h <;> rfl

theorem encode_of_decodePrimitive (h : decodePrimitive code ops = .ok i) : encode i = ⟨.primitive, code, ops⟩ := by
  unfold decodePrimitive at h
  split at h
  case h_2 r startBit pat len =>
    split at h <;> cases h
    subst len
    rfl
  all_goals cases h <;> rfl

theorem encode_of_decodeComposite (h : decodeComposite code = .ok i) : encode i = bare .composite code := by
  unfold decodeComposite at h
  split at h
  case h_1 b2 b1 b0 =>
    split at h <;> cases h
    cases b2 <;> cases b1 <;> cases b0 <;> rfl
  case h_2 => cases h

theorem encode_of_decodeTestAid (h : decodeTestAid code ops = .ok i) : encode i = ⟨.testAid, code, ops⟩ := by
  unfold decodeTestAid at h
  split at h <;> cases h <;> rfl

theorem encode_of_decodeRow {t : Bits} (h : decodeRow code t = .ok i) : encode i = ⟨.row, code, .trailing t⟩ := by
  unfold decodeRow at h
  split at h
  case isTrue hfirst =>
    cases h
    rw [encode, ← hfirst.2, frame_code_eq 24 hfirst.1]
  case isFalse =>
    split at h
    case isTrue hretx =>
      cases h
      rw [encode, ← hretx.2, frame_code_eq 64 hretx.1]
    case isFalse => cases h

theorem encode_of_decodeMsymbol (h : decodeMsymbol code = .ok i) : encode i = bare .msymbol code := by
  unfold decodeMsymbol at h
  split at h <;> cases h <;> rfl

theorem encode_of_decodePayload56 (h : decodePayload56 code = .ok i) : encode i = bare .payload56 code := by
  unfold decodePayload56 at h
  split at h
  case isTrue hlen =>
    cases h
    rw [encode, payload_code_eq hlen]
  case isFalse => cases h

theorem encode_of_decodeStatus (h : decodeStatus code = .ok i) : encode i = bare .status code := by
  unfold decodeStatus at h
  split at h <;> cases h <;> rfl

theorem encode_of_decodeCause (h : decodeCause code = .ok i) : encode i = bare .cause code := by
  unfold decodeCause at h
  split at h <;> cases h <;> rfl

theorem encode_of_decodeControl (h : decodeControl code = .ok i) : encode i = bare .control code := by
  unfold decodeControl at h
  split at h <;> cases h <;> rfl

end

theorem encode_of_decodeCode {w : CodeWord} {i : Instr} (h : decodeCode w = .ok i) : encode i = w := by
  obtain ⟨format, code, operands⟩ := w
  simp only [decodeCode] at h
  split at h
  case h_1 => exact encode_of_decodeStage h
  case h_2 => exact encode_of_decodeHostIn h
  case h_3 => exact encode_of_decodeHostWr h
  case h_4 => exact encode_of_decodePrimitive h
  case h_5 => exact encode_of_decodeComposite h
  case h_6 => exact encode_of_decodeTestAid h
  case h_7 => exact encode_of_decodeRow h
  case h_8 => exact encode_of_decodeMsymbol h
  case h_9 => exact encode_of_decodePayload56 h
  case h_10 => exact encode_of_decodeStatus h
  case h_11 => exact encode_of_decodeCause h
  case h_12 => exact encode_of_decodeControl h
  case h_13 => cases h

/-- Settles O58: every format's decoder accepts only what the encoder writes for the instruction it answers. -/
theorem encodeOfDecode : Obligations.EncodeOfDecode := by
  intro w i h
  obtain ⟨hcode, hwf⟩ := decode_eq_ok_iff.1 h
  exact ⟨hwf, encode_of_decodeCode hcode⟩

/-! ## Words of the table -/

/-- Settles O59: each word written out is the code word of its row, and the last number is that of a payload word. -/
theorem tableWordsDecode : Obligations.TableWordsDecode := by
  have hpayload : tableWord 56 0x5A2C0123ABCDEF = some (encode (.payload 0x5A 0x2 0xC 0x0123 0xABCDEF)) := by
    decide +kernel
  refine ⟨decodeOfEncode .manch rfl, decodeOfEncode (.reset false) rfl, decodeOfEncode (.reset true) rfl,
    decodeOfEncode .start rfl, decodeOfEncode .msym rfl, decodeOfEncode .sym1 rfl,
    decodeOfEncode .statusSanityFailure rfl, decodeOfEncode .shortManchester rfl, decodeOfEncode .ctrl9 rfl, ?_⟩
  rw [decodeTableWord, hpayload]
  simp only [decodeOfEncode (.payload 0x5A 0x2 0xC 0x0123 0xABCDEF) rfl]

end Sys2Proof

/-! PROOFS. The statements of 30_encoding.md on what the codes mean: the packing of the data bits (R96), the symbols (R95),
the payload fields (R97, R98) and the control codes (R101, R102). -/

namespace Sys2Proof.Machine

/-! ## Packing -/

theorem shiftIn_eq_shiftConcat (v : Payload) (b : Bool) : shiftIn v b = v.shiftConcat b := by
  apply BitVec.eq_of_getLsbD_eq
  intro i hi
  rw [BitVec.getLsbD_shiftConcat]
  rcases i with _ | i
  · simp [shiftIn]
  · simp [shiftIn, hi, BitVec.getLsbD_eq_getElem (x := v) (i := i) (by omega)]

/-- `{ SR[54:0], b }` as a concatenation (42_manchester.md R150). -/
theorem shiftIn_eq_append (v : Payload) (b : Bool) : shiftIn v b = v.extractLsb' 0 55 ++ BitVec.ofBool b := by
  apply BitVec.eq_of_getLsbD_eq
  intro i hi
  have hlow : i - 1 < 55 := by omega
  rw [shiftIn_eq_shiftConcat, BitVec.getLsbD_shiftConcat, BitVec.append_ofBool, BitVec.getLsbD_concat]
  simp [hi, hlow]

/-- A bit shifted in is a binary digit more. -/
theorem shiftIn_ofNat (n : Nat) (b : Bool) : shiftIn (BitVec.ofNat 56 n) b = BitVec.ofNat 56 (n * 2 + b.toNat) := by
  apply BitVec.eq_of_toNat_eq
  rw [shiftIn_eq_shiftConcat, BitVec.toNat_shiftConcat, BitVec.toNat_ofNat, BitVec.toNat_ofNat, Nat.shiftLeft_eq]
  omega

theorem natMsb_append_singleton (d : Bits) (b : Bool) : natMsb (d ++ [b]) = natMsb d * 2 + b.toNat := by
  induction d with
  | nil => simp [natMsb]
  | cons x d ih =>
    simp only [List.cons_append, natMsb, ih, List.length_append, List.length_singleton, Nat.pow_succ]
    ring

/-- The shift register holds the number the data bits stand for (30_encoding.md R96). -/
theorem packBits_eq_ofNat (d : Bits) : packBits d = BitVec.ofNat 56 (natMsb d) := by
  induction d using List.reverseRecOn with
  | nil => rfl
  | append_singleton d b ih => rw [packBits_append, ih, shiftIn_ofNat, natMsb_append_singleton]

/-- The bits of a payload pack to it. -/
theorem packBits_bitsMsb (v : Payload) : packBits (bitsMsb 56 v.toNat) = v := by
  rw [packBits_eq_ofNat, ofNat_natMsb_bitsMsb]

theorem bitsMsb_getElem? {n w k : Nat} (h : k < n) : (bitsMsb n w)[k]? = some (w.testBit (n - 1 - k)) := by
  induction n generalizing k with
  | zero => omega
  | succ n ih =>
    rcases k with _ | k
    · simp [bitsMsb]
    · rw [bitsMsb, List.getElem?_cons_succ, ih (by omega)]
      congr 2
      omega

/-- Settles O22: the register holds the number the 56 bits stand for, whose bit `55 - k` is the bit at index `k`. -/
theorem packingIsMostSignificantFirst : Obligations.PackingIsMostSignificantFirst := by
  intro d hd
  have hbits : bitsMsb 56 (packBits d).toNat = d := by rw [packBits_eq_ofNat, bitsMsb_ofNat_natMsb hd]
  have hsr (k : Nat) (hk : k < 56) : d[k]? = some ((packBits d).getLsbD (55 - k)) := by
    conv_lhs => rw [← hbits]
    exact bitsMsb_getElem? hk
  refine ⟨hsr, fun j hj m hm => ?_⟩
  have hindex : 55 - (8 * j + m) = 8 * (6 - j) + (7 - m) := by omega
  rw [hsr _ (by omega), hindex, payloadByte_getLsbD, decide_eq_true (by omega), Bool.true_and]

/-! ## Symbols -/

section
variable {s : State} {y : Symbol}

/-- After the 56th symbol nothing more is read (42_manchester.md R156). -/
theorem State.takeSymbol_full (h : 56 ≤ s.symCnt) : s.takeSymbol y = s := if_pos h

theorem State.takeSymbol_valid {b : Bool} (h : s.symCnt < 56) (hy : y.dataBit = some b) :
    s.takeSymbol y = s.acceptBit b := by
  simp [State.takeSymbol, hy, h]

theorem State.takeSymbol_invalid (h : s.symCnt < 56) (hy : y.dataBit = none) :
    s.takeSymbol y = s.raiseCause .shortManchester := by
  simp [State.takeSymbol, hy, h]

end

theorem exec_sym1 (s : State) : exec .sym1 s = .next (s.takeSymbol .sym1) := rfl
theorem exec_sym0 (s : State) : exec .sym0 s = .next (s.takeSymbol .sym0) := rfl
theorem exec_symInvalidLow (s : State) : exec .symInvalidLow s = .next (s.takeSymbol .invalidLow) := rfl
theorem exec_symInvalidHigh (s : State) : exec .symInvalidHigh s = .next (s.takeSymbol .invalidHigh) := rfl

/-- After the 56th symbol MSYM reads nothing (42_manchester.md R156; log 18). -/
theorem exec_msym_full {s : State} (h : 56 ≤ s.symCnt) : exec .msym s = .next s := if_pos h

/-- Settles O18: before the 56th symbol a valid code is accepted and an invalid one fails; after it none acts. -/
theorem symbolCodesDecode : Obligations.SymbolCodesDecode := by
  intro s
  refine ⟨fun h => ⟨?one, ?zero, ?low, ?high⟩, fun h => ?full⟩
  case one =>
    rw [exec_sym1, State.takeSymbol_valid h rfl, State.acceptBit, shiftIn_eq_append]
    rfl
  case zero =>
    rw [exec_sym0, State.takeSymbol_valid h rfl, State.acceptBit, shiftIn_eq_append]
    rfl
  case low =>
    rw [exec_symInvalidLow, State.takeSymbol_invalid h rfl]
    rfl
  case high =>
    rw [exec_symInvalidHigh, State.takeSymbol_invalid h rfl]
    rfl
  case full =>
    rw [exec_sym1, exec_sym0, exec_symInvalidLow, exec_symInvalidHigh, exec_msym_full h]
    simp only [State.takeSymbol_full h, and_self]

/-! ## The payload fields -/

/-- The bytes the five fields of a payload stand in (30_encoding.md R97). -/
theorem payloadFields_eq_ofBytes (seed : Byte) (control checksum : Nibble) (counter : BitVec 16) (address : BitVec 24) :
    seed ++ control ++ checksum ++ counter ++ address =
      ofBytes seed (control ++ checksum) (counter.extractLsb' 8 8) (counter.extractLsb' 0 8)
        (address.extractLsb' 16 8) (address.extractLsb' 8 8) (address.extractLsb' 0 8) := by
  apply BitVec.eq_of_getLsbD_eq
  intro i hi
  rw [ofBytes_getLsbD]
  grind

theorem exec_payload (seed : Byte) (control checksum : Nibble) (counter : BitVec 16) (address : BitVec 24) (s : State) :
    exec (.payload seed control checksum counter address) s =
      .next (s.giving (.message (messageOf (seed ++ control ++ checksum ++ counter ++ address) s.isRetx))) := rfl

/-- A part of a part of a word is a part of the word. -/
theorem extractLsb'_extractLsb' {w i j n l : Nat} (v : BitVec w) (h : i + n ≤ l) :
    (v.extractLsb' j l).extractLsb' i n = v.extractLsb' (j + i) n := by
  apply BitVec.eq_of_getLsbD_eq
  intro k hk
  have hin : i + k < l := by omega
  simp [hk, hin, Nat.add_assoc]

theorem threeBytes (a : BitVec 24) : a.extractLsb' 16 8 ++ a.extractLsb' 8 8 ++ a.extractLsb' 0 8 = a := by
  apply BitVec.eq_of_getLsbD_eq
  intro i hi
  grind

/-- Byte `k` of six bytes in a row, counted from the least significant end. -/
theorem extractLsb'_sixBytes (c : Nat → Byte) {k : Nat} (hk : k < 6) :
    (c 5 ++ c 4 ++ c 3 ++ c 2 ++ c 1 ++ c 0).extractLsb' (8 * k) 8 = c k := by
  apply BitVec.eq_of_getLsbD_eq
  intro i hi
  interval_cases k <;> grind

/-- Settles O34: the bytes of the payload are those of its fields, and each value of the message is read off them. -/
theorem payloadFieldsAssemble : Obligations.PayloadFieldsAssemble := by
  intro seed control checksum counter address s
  rw [exec_payload, payloadFields_eq_ofBytes]
  refine ⟨_, rfl, ?seedPort, ?controlPort, ?checksumPort, ?counterPort, ?addressPort, ?idPort, ?hexPort, rfl⟩
  case seedPort => exact payloadByte_ofBytes_0 ..
  case controlPort =>
    rw [messageOf, payloadByte_ofBytes_1]
    exact BitVec.extractLsb'_append_eq_left
  case checksumPort =>
    rw [messageOf, payloadByte_ofBytes_1]
    exact BitVec.extractLsb'_append_eq_right
  case counterPort =>
    rw [messageOf, payloadByte_ofBytes_2, payloadByte_ofBytes_3]
    exact BitVec.extractLsb'_append_extractLsb'
  case addressPort =>
    rw [messageOf, payloadByte_ofBytes_4, payloadByte_ofBytes_5, payloadByte_ofBytes_6]
    exact threeBytes address
  case idPort => simp only [messageOf, payloadByte_ofBytes_4, payloadByte_ofBytes_5, payloadByte_ofBytes_6]
  case hexPort =>
    intro k hk
    simp only [messageOf, payloadByte_ofBytes_4, payloadByte_ofBytes_5, payloadByte_ofBytes_6,
      extractLsb'_extractLsb', Nat.reduceAdd, Nat.reduceLeDiff]
    exact extractLsb'_sixBytes (fun j => hexUp (address.extractLsb' (4 * j) 4)) hk

/-! ## The control codes -/

/-- The label of an unknown or reserved code contains a question mark (45_slicer.md R194). -/
theorem ctrlLabel_unknown {c : Nibble} (h : c ∈ [0, 7, 11, 12, 13, 14, 15]) :
    ctrlLabel c = Config.unknownLabelBefore c ++ "?" ++ Config.unknownLabelAfter c := by
  simp only [List.mem_cons, List.not_mem_nil, or_false] at h
  rcases h with rfl | rfl | rfl | rfl | rfl | rfl | rfl <;> rfl

/-- Settles O37: each of the sixteen codes in its turn passes through, and the labels are read off the table. -/
theorem controlCodesPassThrough : Obligations.ControlCodesPassThrough := by
  refine ⟨fun k i hi s => ?passes, rfl, rfl, rfl, rfl, rfl, rfl, fun c hc => ⟨_, _, ctrlLabel_unknown hc⟩⟩
  have hk : k < 16 := (List.getElem?_eq_some_iff.1 hi).1
  interval_cases k <;> cases hi <;> rfl

end Sys2Proof.Machine

/-! PROOFS. The statements of 30_encoding.md on frames (R90 to R92): which bits of a row the result depends on, the run of the
stages from an accepted START to DONE, and the frames run as captures of one row. -/

namespace Sys2Proof.Machine

/-! ## What of a row the decode reads -/

theorem symbolAt_congr {row row' : Bits} {pos : Nat} (h0 : row[pos]? = row'[pos]?)
    (h1 : row[pos + 1]? = row'[pos + 1]?) : symbolAt row pos = symbolAt row' pos := by
  rw [symbolAt, symbolAt, h0, h1]

/-- The decoder reads the `2 n` bits from its start on and no others (42_manchester.md R151). -/
theorem manchesterDecode_congr {row row' : Bits} {pos n : Nat}
    (h : ∀ i, pos ≤ i → i < pos + 2 * n → row[i]? = row'[i]?) :
    manchesterDecode row pos n = manchesterDecode row' pos n := by
  induction n generalizing pos with
  | zero => rfl
  | succ n ih =>
    have hsym : symbolAt row pos = symbolAt row' pos :=
      symbolAt_congr (h pos (by omega) (by omega)) (h (pos + 1) (by omega) (by omega))
    cases hs : (symbolAt row pos).bind Symbol.dataBit with
    | none => rw [manchesterDecode_none _ hs, manchesterDecode_none _ (hsym ▸ hs)]
    | some b =>
      rw [manchesterDecode_some _ hs, manchesterDecode_some _ (hsym ▸ hs),
        ih fun i hi hn => h i (by omega) (by omega)]

/-- The decoder reads back what MANCH_ENCODE wrote, wherever it stands in the row (42_manchester.md R160). -/
theorem manchesterDecode_manchEncode (pre d post : Bits) :
    manchesterDecode (pre ++ (manchEncode d ++ post)) pre.length d.length = (d, pre.length + 2 * d.length) := by
  induction d generalizing pre with
  | nil => rfl
  | cons b d ih =>
    have hsym : (symbolAt (pre ++ (manchEncode (b :: d) ++ post)) pre.length).bind Symbol.dataBit = some b := by
      simp [symbolAt, manchEncode, Symbol.dataBit_ofPair]
    have hrest := ih (pre ++ [!b, b])
    simp only [List.append_assoc, List.cons_append, List.nil_append, List.length_append, List.length_cons,
      List.length_nil] at hrest
    rw [List.length_cons, manchesterDecode_some _ hsym]
    simp only [manchEncode, List.cons_append, hrest]
    congr 1
    omega

/-- The one row of a row set is chosen when it is in a band. -/
theorem decodeRows_singleton {row : Bits} {retx : Bool} (h : bandOf row.length = some retx) :
    decodeRows [row] = decodeChosen retx row := by
  simp [decodeRows, classify, classifyFrom, h]

/-- The decode of the chosen row reads the pattern bits and the 112 data half-bits and no others. -/
theorem decodeChosen_congr {retx : Bool} {row row' : Bits}
    (hpat : ∀ i < preambleBitLength retx, row[i]? = row'[i]?)
    (hdata : ∀ i, dataStartBit retx ≤ i → i < dataStartBit retx + 112 → row[i]? = row'[i]?) :
    decodeChosen retx row = decodeChosen retx row' := by
  have htake : row.take (preambleBitLength retx) = row'.take (preambleBitLength retx) := by
    apply List.ext_getElem?
    intro i
    rw [List.getElem?_take, List.getElem?_take]
    split
    · exact hpat i ‹_›
    · rfl
  rw [decodeChosen, decodeChosen, htake, nSym_eq, manchesterDecode_congr hdata]

/-- Settles O45: both rows are chosen, and the decode reads only bits on which they agree. -/
theorem unexaminedBitsDoNotMatter : Obligations.UnexaminedBitsDoNotMatter := by
  intro retx row row' hlen hpat hdata hband
  rw [decodeRows_singleton hband, decodeRows_singleton (hlen ▸ hband), decodeChosen_congr hpat hdata]

/-! ## The run of the stages -/

/-- From `s` the stages end, within `k` steps, in DONE with the ports that encode `R` (46_sequencer.md R214). -/
def State.EndsWithin (k : Nat) (s : State) (R : Result) : Prop :=
  ∃ t, (∀ n, k ≤ n → runStages n s = .next t) ∧ t.stage = .done ∧ t.outputs = R.ports

theorem runStages_not_busy {s : State} (h : s.busy = false) (n : Nat) : runStages n s = .next s := by
  cases n <;> simp [runStages, h]

theorem runStages_busy {s u : State} (h : s.busy = true) (hstep : stageStep s = .next u) (n : Nat) :
    runStages (n + 1) s = runStages n u := by
  simp [runStages, h, hstep]

/-- No run of the stages writes the row buffer, the host's inputs or the model's own fields. -/
theorem runStages_frame {n : Nat} {s t : State} (h : runStages n s = .next t) :
    t.rows = s.rows ∧ t.numRows = s.numRows ∧ t.inputs = s.inputs ∧ t.resets = s.resets ∧
      t.returned = s.returned := by
  induction n generalizing s with
  | zero => cases h; simp
  | succ n ih =>
    cases hb : s.busy with
    | false =>
      rw [runStages_not_busy hb] at h
      cases h
      simp
    | true =>
      simp only [runStages, hb, if_true] at h
      obtain ⟨u, hu, ht⟩ := andThen_eq_next h
      obtain ⟨hrows, hnum, hinputs, hresets, hreturned⟩ := stageStep_frame hu
      rw [← hrows, ← hnum, ← hinputs, ← hresets, ← hreturned]
      exact ih ht

section
variable {s u : State} {k : Nat} {R : Result}

theorem State.EndsWithin.mono (h : s.EndsWithin k R) {k' : Nat} (hk : k ≤ k') : s.EndsWithin k' R := by
  obtain ⟨t, hrun, hdone, hout⟩ := h
  exact ⟨t, fun n hn => hrun n (by omega), hdone, hout⟩

/-- One stage step before the rest of a run. -/
theorem State.EndsWithin.of_step (h : u.EndsWithin k R) (hb : s.busy = true) (hstep : stageStep s = .next u) :
    s.EndsWithin (k + 1) R := by
  obtain ⟨t, hrun, hdone, hout⟩ := h
  refine ⟨t, fun n hn => ?_, hdone, hout⟩
  obtain ⟨m, rfl⟩ : ∃ m, n = m + 1 := ⟨n - 1, by omega⟩
  rw [runStages_busy hb hstep, hrun m (by omega)]

theorem endsWithin_done (hs : s.stage = .done) (hout : s.outputs = R.ports) : s.EndsWithin 0 R :=
  ⟨s, fun n _ => runStages_not_busy (busy_eq_false.2 (.inr hs)) n, hs, hout⟩

/-- The result a failure is (60_exceptions.md R231 to R234). -/
def Cause.result (c : Cause) : Result :=
  match c.failure with
  | .sanity => .sanityFailure c
  | .integrity => .integrityFailure c

theorem endsWithin_raiseCause (c : Cause) (s : State) : (s.raiseCause c).EndsWithin 0 c.result :=
  endsWithin_done rfl (State.outputs_raiseCause s c)

theorem endsWithin_slice (hs : s.stage = .slice) : s.EndsWithin 1 (.success (messageOf s.sr s.isRetx)) := by
  have hdone : s.publish.EndsWithin 0 (.success (messageOf s.sr s.isRetx)) := endsWithin_done rfl rfl
  exact hdone.of_step (by simp [busy_eq_true, hs]) (by simp [stageStep, hs, execSlice])

theorem stageStep_fold_pass (hs : s.stage = .fold) (h : foldNibble s.sr = 0) :
    stageStep s = .next (s.goto .slice) := by
  simp only [stageStep, hs, execFold, if_pos h]

theorem stageStep_fold_fail (hs : s.stage = .fold) (h : foldNibble s.sr ≠ 0) :
    stageStep s = .next (s.raiseCause .checksumNonzero) := by
  simp only [stageStep, hs, execFold, if_neg h]

theorem endsWithin_fold (hs : s.stage = .fold) : s.EndsWithin 2
    (if foldNibble s.sr = 0 then .success (messageOf s.sr s.isRetx) else .integrityFailure .checksumNonzero) := by
  have hb : s.busy = true := by simp [busy_eq_true, hs]
  split
  case isTrue h => exact (endsWithin_slice (s := s.goto .slice) rfl).of_step hb (stageStep_fold_pass hs h)
  case isFalse h =>
    exact ((endsWithin_raiseCause .checksumNonzero s).of_step hb (stageStep_fold_fail hs h)).mono (by omega)

/-- Steps 4 to 6 of Decode (46_sequencer.md R200) are the stages DESCR, FOLD and SLICE. -/
theorem endsWithin_descr (hs : s.stage = .descr) : s.EndsWithin 3 (finishDecode s.isRetx s.sr) :=
  (endsWithin_fold (s := (s.setPayload (descramble s.sr)).goto .fold) rfl).of_step
    (by simp [busy_eq_true, hs]) (by simp [stageStep, hs, execDescr])

/-- One symbol of MANCH while fewer than 56 are in (42_manchester.md R158). -/
theorem stageStep_manch (hs : s.stage = .manch) (hcnt : s.symCnt < 56) (hrow : s.rowIdx < Config.maxRows) :
    stageStep s = .next (s.msymOn s.chosenRow) := by
  simp [stageStep, hs, execManch, hcnt, withRow_next _ hrow, State.chosenRow]

/-- The result of an invocation that has `sr` in the shift register, is to decode `k` more symbols and gets the bits `d` of
them (46_sequencer.md R200, steps 3 to 6). -/
def finishManch (retx : Bool) (sr : Payload) (d : Bits) (k : Nat) : Result :=
  if d.length = k then finishDecode retx (d.foldl shiftIn sr) else .integrityFailure .shortManchester

theorem finishManch_cons (retx : Bool) (sr : Payload) (b : Bool) (d : Bits) (k : Nat) :
    finishManch retx sr (b :: d) (k + 1) = finishManch retx (shiftIn sr b) d k :=
  if_congr (by simp) rfl rfl

/-- Step 3 of Decode (46_sequencer.md R200) is the stage MANCH: from a cursor with `k` symbols to go it ends as the decode of
those `k` symbols says. -/
theorem endsWithin_manch (hs : s.stage = .manch) (hcnt : s.symCnt + k = 56) (hrow : s.rowIdx < Config.maxRows) :
    s.EndsWithin (k + 4) (finishManch s.isRetx s.sr (manchesterDecode s.chosenRow s.bitPos k).1 k) := by
  have hb : s.busy = true := by simp [busy_eq_true, hs]
  induction k generalizing s with
  | zero =>
    have hfull : s.symCnt = 56 := by omega
    exact (endsWithin_descr (s := s.goto .descr) rfl).of_step hb (by simp [stageStep, hs, execManch, hfull])
  | succ k ih =>
    have hstep := stageStep_manch hs (by omega) hrow
    rcases State.msymOn_cases s.chosenRow (s := s) (by omega) with ⟨b, hbit, e⟩ | ⟨hbit, e⟩ <;> rw [e] at hstep
    · have hrest := ih (s := s.acceptBit b) hs (by rw [State.acceptBit_symCnt]; omega) hrow hb
      rw [manchesterDecode_some _ hbit, finishManch_cons]
      exact (hrest.of_step hb hstep).mono (by omega)
    · rw [manchesterDecode_none _ hbit, finishManch, if_neg (by simp)]
      exact ((endsWithin_raiseCause .shortManchester s).of_step hb hstep).mono (by omega)

/-- The search from offset 0 answers 0 exactly for a row that begins with the pattern (41_locator.md R142). -/
theorem search_zero_iff {row pat : Bits} : search row 0 pat = some 0 ↔ row.take pat.length = pat := by
  refine ⟨take_eq_of_search_zero, fun h => ?_⟩
  have hlen : pat.length ≤ row.length := by
    have := congrArg List.length h
    simp at this
    omega
  have hmatch : matchesAt row pat 0 = true := matchesAt_iff.2 ⟨by omega, h⟩
  obtain ⟨m, hm⟩ : ∃ m, row.length + 1 - (0 + pat.length) = m + 1 := ⟨row.length - pat.length, by omega⟩
  rw [search, hm, searchFrom, if_pos hmatch]

theorem locateOn_eq (row : Bits) (s : State) : s.locateOn row =
    if row.take (preambleBitLength s.isRetx) = patternBits s.isRetx then s.located
    else s.raiseCause .preambleNotAt0 :=
  if_congr (by rw [search_zero_iff, patternBits_length]) rfl rfl

theorem stageStep_locate (hs : s.stage = .locate) (hrow : s.rowIdx < Config.maxRows) :
    stageStep s = .next (s.locateOn s.chosenRow) := by
  simp only [stageStep, hs, execLocate, withRow_next _ hrow, State.chosenRow]

/-- Steps 2 to 6 of Decode (46_sequencer.md R200) are the stages from LOCATE on. -/
theorem endsWithin_locate (hs : s.stage = .locate) (hsr : s.sr = 0) (hrow : s.rowIdx < Config.maxRows) :
    s.EndsWithin 61 (decodeChosen s.isRetx s.chosenRow) := by
  have hb : s.busy = true := by simp [busy_eq_true, hs]
  have hstep := stageStep_locate hs hrow
  rw [locateOn_eq] at hstep
  rw [decodeChosen]
  split
  case isTrue hpat =>
    rw [if_pos hpat] at hstep
    have hrest := endsWithin_manch (s := s.located) (k := 56) rfl rfl hrow
    rw [State.located_sr, hsr] at hrest
    exact hrest.of_step hb hstep
  case isFalse hpat =>
    rw [if_neg hpat] at hstep
    exact ((endsWithin_raiseCause .preambleNotAt0 s).of_step hb hstep).mono (by omega)

theorem stageStep_classify_end (hs : s.stage = .classify) (h : s.numRows ≤ s.rowIdx) :
    stageStep s = .next (s.raiseCause .noRowInBand) := by
  simp only [stageStep, hs, execClassify, if_pos h]

theorem stageStep_classify_row (hs : s.stage = .classify) (h : s.rowIdx < s.numRows)
    (hrow : s.rowIdx < Config.maxRows) : stageStep s = .next (s.classifyLength s.chosenRow.length) := by
  simp only [stageStep, hs, execClassify, if_neg (Nat.not_le.2 h), withRow_next _ hrow, State.chosenRow]

/-- With the rows before `r` in no band, the scan of the row set is the scan from row `r` on. -/
theorem classify_rowSet_skip {r : Nat} (hr : r ≤ s.numRows) (hskip : ∀ j < r, bandOf (s.rowLen j) = none) :
    classify s.rowSet = classifyFrom r (s.rowSet.drop r) := by
  have hrows : ∀ j < r, ∀ row, s.rowSet[j]? = some row → bandOf row.length = none := by
    intro j hj row hget
    rw [State.rowSet_get (by omega)] at hget
    cases hget
    exact hskip j hj
  rw [classify, classifyFrom_skip s.rowSet 0 r hrows, State.rowSet_length, Nat.zero_add, Nat.min_eq_left hr]

theorem decodeRows_rowSet_none (hskip : ∀ j < s.numRows, bandOf (s.rowLen j) = none) :
    decodeRows s.rowSet = .sanityFailure .noRowInBand := by
  have hnone : classify s.rowSet = none := by
    rw [classify_rowSet_skip le_rfl hskip, List.drop_eq_nil_of_le (by simp), classifyFrom]
  simp only [decodeRows, hnone]

theorem decodeRows_rowSet_some {r : Nat} {retx : Bool} (hr : r < s.numRows)
    (hskip : ∀ j < r, bandOf (s.rowLen j) = none) (hband : bandOf (s.rowLen r) = some retx) :
    decodeRows s.rowSet = decodeChosen retx (s.rowAt r) := by
  have hget := State.rowSet_get hr
  obtain ⟨hlt, hrow⟩ := List.getElem?_eq_some_iff.1 hget
  have hsome : classify s.rowSet = some (retx, r) := by
    rw [classify_rowSet_skip hr.le hskip, List.drop_eq_getElem_cons hlt, hrow]
    rw [State.rowLen] at hband
    simp only [classifyFrom, hband]
  simp only [decodeRows, hsome, hget]

/-- Decode (46_sequencer.md R200) from CLASSIFY on, with `k` rows left to examine and those before them in no band. -/
theorem endsWithin_classify (hs : s.stage = .classify) (hsr : s.sr = 0) (hmax : s.numRows ≤ Config.maxRows)
    (hk : s.rowIdx + k = s.numRows) (hskip : ∀ j < s.rowIdx, bandOf (s.rowLen j) = none) :
    s.EndsWithin (k + 62) (decodeRows s.rowSet) := by
  have hb : s.busy = true := by simp [busy_eq_true, hs]
  induction k generalizing s with
  | zero =>
    have hend : s.numRows = s.rowIdx := by omega
    rw [decodeRows_rowSet_none (hend ▸ hskip)]
    exact ((endsWithin_raiseCause .noRowInBand s).of_step hb (stageStep_classify_end hs hend.le)).mono (by omega)
  | succ k ih =>
    have hlt : s.rowIdx < s.numRows := by omega
    have hrow : s.rowIdx < Config.maxRows := by omega
    have hstep := stageStep_classify_row hs hlt hrow
    cases hband : bandOf s.chosenRow.length with
    | some retx =>
      rw [State.classifyLength, hband] at hstep
      rw [decodeRows_rowSet_some hlt hskip hband]
      exact ((endsWithin_locate (s := s.chooseRow retx) rfl hsr hrow).of_step hb hstep).mono (by omega)
    | none =>
      rw [State.classifyLength, hband] at hstep
      have hskip' : ∀ j < s.rowIdx + 1, bandOf (s.rowLen j) = none := by
        intro j hj
        rcases Nat.lt_succ_iff_lt_or_eq.1 hj with hj | rfl
        · exact hskip j hj
        · exact hband
      have hrest := ih (s := s.skipRow) hs hsr hmax (by simp; omega) hskip' hb
      exact (hrest.of_step hb hstep).mono (by omega)

end

/-- From clean registers the run of the stages computes `Decode(B)` and leaves the row buffer alone (46_sequencer.md
R200, R214). -/
theorem runToDone_startClear {s : State} (hmax : s.numRows ≤ Config.maxRows) :
    ∃ t, runToDone s.startClear = .next t ∧ t.stage = .done ∧ t.outputs = (decodeRows s.rowSet).ports ∧
      t.rows = s.rows ∧ t.numRows = s.numRows ∧ t.inputs = s.inputs ∧ t.resets = s.resets ∧
      t.returned = s.returned := by
  obtain ⟨t, hrun, hdone, hout⟩ := endsWithin_classify (s := s.startClear) (k := s.numRows) rfl rfl hmax
    (Nat.zero_add _) (fun j hj => absurd hj (Nat.not_lt_zero j))
  have ht : runToDone s.startClear = .next t := hrun _ (by simp [runBound])
  exact ⟨t, ht, hdone, hout, runStages_frame (s := s.startClear) ht⟩

/-! ## Frames -/

/-- The frame of either shape. -/
def frameInstr (retx x : Bool) (m : BitVec 112) (t : Bits) : Instr :=
  if retx then .frameRetx x m t else .frameFirst x m t

section
variable {retx x : Bool} {m : BitVec 112} {t : Bits} {s : State}

theorem exec_frameInstr : exec (frameInstr retx x m t) s = s.capture (frameBits retx x m t) := by
  cases retx <;> rfl

theorem frameBits_length : (frameBits retx x m t).length = dataStartBit retx + 112 + t.length := by
  cases retx <;> simp [frameBits, dataStartBit, Config.dsFirst, Config.dsRetx] <;> omega

/-- A well-formed frame fits the buffer and lies in the band of its shape (30_encoding.md R90). -/
theorem frame_fits (h : (frameInstr retx x m t).wellFormed = true) :
    (frameBits retx x m t).length ≤ Config.maxRowBits ∧ bandOf (frameBits retx x m t).length = some retx := by
  cases retx with
  | false =>
    have ht : t.length ≤ 33 := of_decide_eq_true h
    have hlen : (frameBits false x m t).length = 137 + t.length := frameBits_length
    exact ⟨by rw [hlen, Config.maxRowBits]; omega, bandOf_eq_false.2 ⟨by omega, by omega⟩⟩
  | true =>
    have ht : 177 + t.length ≤ Config.maxRowBits := of_decide_eq_true h
    have hlen : (frameBits true x m t).length = 177 + t.length := frameBits_length
    exact ⟨by omega, bandOf_eq_true.2 (by omega)⟩

end

/-- A capture is ignored while `busy = 1` (20_memory.md R73, 46_sequencer.md R213). -/
theorem capture_busy {s : State} (row : Bits) (h : s.busy = true) : s.capture row = .next s := by
  simp [State.capture, h]

/-- A capture that is not ignored loads its row as row 0 and the only one, and runs from clean registers. -/
theorem capture_free {s : State} {row : Bits} (h : s.busy = false) (hlen : row.length ≤ Config.maxRowBits) :
    s.capture row = runToDone ((s.writeRow 0 row).writeNumRows 1).startClear := by
  have hload : s.loadRow 0 row = s.writeRow 0 row := State.loadRow_accepted ⟨h, Nat.succ_pos _, hlen⟩
  have hnum : (s.writeRow 0 row).setNumRows 1 = (s.writeRow 0 row).writeNumRows 1 :=
    State.setNumRows_accepted ⟨h, Nat.succ_le_succ (Nat.zero_le _)⟩
  have hstart : ((s.writeRow 0 row).writeNumRows 1).acceptStart = ((s.writeRow 0 row).writeNumRows 1).startClear :=
    State.acceptStart_free h
  rw [State.capture, hload, hnum, hstart]
  simp [h]

/-- A capture ends in DONE with the result of decoding its row, which stands alone in the buffer as row 0. -/
theorem capture_runs_to_done {s : State} {row : Bits} (h : s.busy = false) (hlen : row.length ≤ Config.maxRowBits) :
    ∃ u, s.capture row = .next u ∧ u.stage = .done ∧ u.numRows = 1 ∧ u.rowAt 0 = row ∧
      (∀ r, r ≠ 0 → u.rowAt r = s.rowAt r) ∧ u.outputs = (decodeRows [row]).ports := by
  obtain ⟨u, hrun, hdone, hout, hrows, hnum, -, hresets, -⟩ :=
    runToDone_startClear (s := (s.writeRow 0 row).writeNumRows 1) (Nat.succ_le_succ (Nat.zero_le _))
  have hrowSet : ((s.writeRow 0 row).writeNumRows 1).rowSet = [row] := by
    simp [State.rowSet]
  have hrowAt : ∀ r, u.rowAt r = (s.writeRow 0 row).rowAt r := State.rowAt_congr hrows hresets
  refine ⟨u, (capture_free h hlen).trans hrun, hdone, hnum, ?row, fun r hr => ?others, hrowSet ▸ hout⟩
  case row => rw [hrowAt, State.rowAt_writeRow_same]
  case others => rw [hrowAt, State.rowAt_writeRow_other row s hr]

/-- Settles O50: a well-formed frame fits the buffer, so its capture runs to DONE. -/
theorem framesRunToDone : Obligations.FramesRunToDone := by
  intro retx x m t s hwf
  refine ⟨fun hb => ?free, fun hb => ?busy⟩
  case free => exact exec_frameInstr ▸ capture_runs_to_done hb (frame_fits hwf).1
  case busy => exact exec_frameInstr.trans (capture_busy _ hb)

/-- A frame whose half-bits encode a payload decodes as that payload (30_encoding.md R90, R91). -/
theorem decodeRows_frame {retx x : Bool} {m : BitVec 112} {t : Bits} {v : Payload}
    (hwf : (frameInstr retx x m t).wellFormed = true) (hm : bitsMsb 112 m.toNat = manchEncode (bitsMsb 56 v.toNat)) :
    decodeRows [frameBits retx x m t] = finishDecode retx v := by
  have hpat : (frameBits retx x m t).take (preambleBitLength retx) = patternBits retx :=
    List.take_left' (patternBits_length retx)
  have hstart : (patternBits retx ++ [x]).length = dataStartBit retx := by cases retx <;> rfl
  have hdecode : manchesterDecode (frameBits retx x m t) (dataStartBit retx) 56 =
      (bitsMsb 56 v.toNat, dataStartBit retx + 2 * 56) := by
    have h := manchesterDecode_manchEncode (patternBits retx ++ [x]) (bitsMsb 56 v.toNat) t
    rw [hstart, ← hm, Laws.bitsMsb_length] at h
    simpa [frameBits] using h
  rw [decodeRows_singleton (frame_fits hwf).2, decodeChosen, if_pos hpat, nSym_eq, hdecode,
    if_pos (Laws.bitsMsb_length 56 _), packBits_bitsMsb]

/-- A well-formed frame of a payload gives its message when the fold is 0 and a checksum failure otherwise. -/
theorem frame_decodes_payload {retx x : Bool} {m : BitVec 112} {t : Bits} {v : Payload} {s : State}
    (hb : s.busy = false) (hm : bitsMsb 112 m.toNat = manchEncode (bitsMsb 56 v.toNat))
    (hwf : (frameInstr retx x m t).wellFormed = true) :
    ∃ u, exec (frameInstr retx x m t) s = .next u ∧ u.stage = .done ∧
      (foldNibble (descramble v) = 0 → u.outputs = (Result.success (messageOf (descramble v) retx)).ports) ∧
      (foldNibble (descramble v) ≠ 0 → u.outputs = (Result.integrityFailure .checksumNonzero).ports) := by
  obtain ⟨u, hrun, hdone, -, -, -, hout⟩ := capture_runs_to_done hb (frame_fits hwf).1
  rw [decodeRows_frame hwf hm, finishDecode] at hout
  exact ⟨u, exec_frameInstr.trans hrun, hdone, fun h => by rw [hout, if_pos h], fun h => by rw [hout, if_neg h]⟩

/-- Settles O49: the stated lengths of the trailing bits are those of well-formed frames. -/
theorem framesDecodeTheirPayload : Obligations.FramesDecodeTheirPayload :=
  ⟨fun _ _ _ _ _ hb hm ht => frame_decodes_payload (retx := false) hb hm (decide_eq_true ht),
    fun _ _ _ _ _ hb hm ht => frame_decodes_payload (retx := true) hb hm (decide_eq_true ht)⟩

end Sys2Proof.Machine

/-! PROOFS. The statements of 40_classifier.md: the function CLASSIFY chooses the first row in either band (R130), and one
step of the stage fails, chooses a shape or skips one row (R131). -/

namespace Sys2Proof.Machine

/-! ## The function, by recursion on the row set -/

/-- A scan that begins one index higher answers one index higher. -/
theorem classifyFrom_succ (n : Nat) (rows : List Bits) :
    classifyFrom (n + 1) rows = (classifyFrom n rows).map (Prod.map id Nat.succ) := by
  induction rows generalizing n with
  | nil => rfl
  | cons row rows ih =>
    cases hb : bandOf row.length with
    | some retx => simp [classifyFrom, hb]
    | none => simp only [classifyFrom, hb, ih]

theorem classify_nil : classify [] = none := rfl

/-- A first row in a band is chosen, whatever stands behind it. -/
theorem classify_cons_band {row : Bits} {retx : Bool} (h : bandOf row.length = some retx) (rows : List Bits) :
    classify (row :: rows) = some (retx, 0) := by
  simp only [classify, classifyFrom, h]

/-- A first row in no band is skipped: the answer is that of the other rows, one index higher. -/
theorem classify_cons_skip {row : Bits} (h : bandOf row.length = none) (rows : List Bits) :
    classify (row :: rows) = (classify rows).map (Prod.map id Nat.succ) := by
  simp only [classify, classifyFrom, h, classifyFrom_succ]

/-- The chosen row is in the band of its shape, and every row before it is in none. -/
theorem classify_eq_some_iff {rows : List Bits} {retx : Bool} {r : Nat} :
    classify rows = some (retx, r) ↔ ∃ row, rows[r]? = some row ∧ bandOf row.length = some retx ∧
      ∀ (k : Nat) (row' : Bits), k < r → rows[k]? = some row' → bandOf row'.length = none := by
  induction rows generalizing r with
  | nil => simp [classify_nil]
  | cons row rows ih =>
    cases hb : bandOf row.length with
    | some b =>
      rw [classify_cons_band hb]
      cases r with
      | zero => simp [hb]
      | succ r =>
        refine iff_of_false (by simp) ?_
        rintro ⟨-, -, -, hbefore⟩
        exact absurd (hb.symm.trans (hbefore 0 row r.succ_pos rfl)) (by simp)
    | none =>
      rw [classify_cons_skip hb]
      cases r with
      | zero => simp [hb]
      | succ r =>
        have hshift : (classify rows).map (Prod.map id Nat.succ) = some (retx, r + 1) ↔
            classify rows = some (retx, r) := by simp
        have hbefore : (∀ (k : Nat) (row' : Bits), k < r + 1 → (row :: rows)[k]? = some row' →
              bandOf row'.length = none) ↔
            ∀ (k : Nat) (row' : Bits), k < r → rows[k]? = some row' → bandOf row'.length = none := by
          refine ⟨fun h k row' hk => h (k + 1) row' (Nat.succ_lt_succ hk), fun h k row' hk hget => ?_⟩
          cases k with
          | zero => cases hget; exact hb
          | succ k => exact h k row' (Nat.lt_of_succ_lt_succ hk) hget
        rw [hshift, ih, hbefore, List.getElem?_cons_succ]

/-- The scan runs off the end exactly when every row is in no band. -/
theorem classify_eq_none_iff {rows : List Bits} :
    classify rows = none ↔ ∀ row ∈ rows, bandOf row.length = none := by
  induction rows with
  | nil => simp [classify_nil]
  | cons row rows ih =>
    cases hb : bandOf row.length with
    | some retx => simp [classify_cons_band hb, hb]
    | none => simp [classify_cons_skip hb, hb, ih]

/-- The two bands as one condition on the shape and the length. -/
theorem bandOf_eq_some {n : Nat} {retx : Bool} :
    bandOf n = some retx ↔ (retx = true ∧ 170 < n) ∨ (retx = false ∧ 130 < n ∧ n ≤ 170) := by
  cases retx with
  | false => simp [bandOf_eq_false]
  | true => simp [bandOf_eq_true]

/-- Settles O13: the scan stops at the first row in a band, and the bands are the two length conditions. -/
theorem classifyTakesFirstRowInBand : Obligations.ClassifyTakesFirstRowInBand := by
  intro rows
  simp only [classify_eq_some_iff, classify_eq_none_iff, bandOf_eq_some, bandOf_eq_none, implies_true, and_self]

/-! ## The step -/

section
variable {s : State}

/-- With every row examined the step fails, and no row is read (40_classifier.md R131). -/
theorem exec_classify_end (h : s.numRows ≤ s.rowIdx) : exec .classify s = .next (s.raiseCause .noRowInBand) :=
  if_pos h

/-- The step looks at the length of the row under the index and at nothing else of it (40_classifier.md R131). -/
theorem exec_classify_row (h : s.rowIdx < s.numRows) (hrow : s.rowIdx < Config.maxRows) :
    exec .classify s = .next (s.classifyLength (s.rowLen s.rowIdx)) :=
  (if_neg (Nat.not_le.2 h)).trans (withRow_next _ hrow)

theorem classifyLength_band {len : Nat} {retx : Bool} (h : bandOf len = some retx) :
    s.classifyLength len = s.chooseRow retx := by
  simp only [State.classifyLength, h]

theorem classifyLength_skip {len : Nat} (h : bandOf len = none) : s.classifyLength len = s.skipRow := by
  simp only [State.classifyLength, h]

end

/-- Settles O12: the step is decided by the row count and the band of the row under the index, which lies in the buffer. -/
theorem classifyExaminesOneRow : Obligations.ClassifyExaminesOneRow := by
  intro s hmax
  have hrow (h : s.rowIdx < s.numRows) : exec .classify s = .next (s.classifyLength (s.rowLen s.rowIdx)) :=
    exec_classify_row h (h.trans_le hmax)
  refine ⟨fun hend => ?fail, fun hlt hlen => ?retx, fun hlt hle hlen => ?first, fun hlt hlen => ?skip⟩
  case fail => exact exec_classify_end hend
  case retx => rw [hrow hlt, classifyLength_band (bandOf_eq_true.2 hlen)]; rfl
  case first => rw [hrow hlt, classifyLength_band (bandOf_eq_false.2 ⟨hlen, hle⟩)]; rfl
  case skip => rw [hrow hlt, classifyLength_skip (bandOf_eq_none.2 hlen)]; rfl

end Sys2Proof.Machine

/-! PROOFS. The statements of 41_locator.md: SEARCH answers the least offset of the pattern (R140), LOCATE passes exactly
when that offset from 0 is 0 (R141), and this is one comparison of the row's first bits (R142). -/

namespace Sys2Proof.Machine

/-! ## The search -/

/-- A match at an offset, bit for bit (41_locator.md R140). -/
theorem matchesAt_iff_bits {row pat : Bits} {o : Nat} :
    matchesAt row pat o = true ↔ o + pat.length ≤ row.length ∧ ∀ j < pat.length, row[o + j]? = pat[j]? := by
  rw [matchesAt_iff]
  refine and_congr_right fun _ => ⟨fun h j hj => ?_, fun h => List.ext_getElem? fun j => ?_⟩
  · have hbit := congrArg (·[j]?) h
    simpa [List.getElem?_take, hj] using hbit
  · rw [List.getElem?_take, List.getElem?_drop]
    split
    case isTrue hj => exact h j hj
    case isFalse hj => exact (List.getElem?_eq_none (Nat.not_lt.1 hj)).symm

/-- The search answers `k` exactly when `k` is the least match not below `start`: its range leaves out only offsets at which
the pattern would not lie inside the row. -/
theorem search_eq_some_iff {row pat : Bits} {st k : Nat} :
    search row st pat = some k ↔
      (st ≤ k ∧ matchesAt row pat k = true) ∧ ∀ j, st ≤ j → j < k → matchesAt row pat j = false := by
  rcases searchFrom_spec row pat (row.length + 1 - (st + pat.length)) st with
    ⟨m, hm, hst, -, hmatch, hleast⟩ | ⟨hnone, hno⟩
  case inl =>
    rw [search, hm, Option.some_inj]
    constructor
    · rintro rfl
      exact ⟨⟨hst, hmatch⟩, hleast⟩
    · rintro ⟨⟨hk, hkmatch⟩, hkleast⟩
      rcases Nat.lt_trichotomy m k with hlt | heq | hgt
      · simp [hkleast m hst hlt] at hmatch
      · exact heq
      · simp [hleast k hk hgt] at hkmatch
  case inr =>
    rw [search, hnone]
    refine ⟨nofun, fun ⟨⟨hk, hkmatch⟩, _⟩ => ?_⟩
    have hinside := (matchesAt_iff.1 hkmatch).1
    simp [hno k hk (by omega)] at hkmatch

/-- The least match in bits. Below a match the pattern always lies inside the row, so there only the bits decide. -/
theorem search_eq_some_iff_bits {row pat : Bits} {st k : Nat} :
    search row st pat = some k ↔
      (st ≤ k ∧ k + pat.length ≤ row.length ∧ ∀ j < pat.length, row[k + j]? = pat[j]?) ∧
      ∀ k', st ≤ k' → k' < k → ¬∀ j < pat.length, row[k' + j]? = pat[j]? := by
  rw [search_eq_some_iff, matchesAt_iff_bits]
  refine and_congr_right fun ⟨_, hinside, _⟩ => forall₃_congr fun k' _ hk' => ?_
  have hinside' : k' + pat.length ≤ row.length := by omega
  rw [← Bool.not_eq_true, matchesAt_iff_bits, and_iff_right hinside']

/-- `MemRead(r, 0, L)` is the pattern exactly when the row begins with it; a shorter row begins with nothing so long. -/
theorem memRead_zero_eq_some_iff {s : State} {r : Nat} {pat : Bits} :
    s.memRead r 0 pat.length = some pat ↔ (s.rowAt r).take pat.length = pat := by
  have hlen (h : (s.rowAt r).take pat.length = pat) : pat.length ≤ s.rowLen r := by
    simpa [State.rowLen] using congrArg List.length h
  simpa [State.memRead] using hlen

/-! ## SEARCH and LOCATE as instructions -/

section
variable {s : State}

theorem exec_search {r : Nat} (st : Nat) (pat : Bits) (hr : r < Config.maxRows) :
    exec (.search r st pat) s = .next (s.giving (.offset (search (s.rowAt r) st pat))) :=
  withRow_next _ hr

theorem exec_locate (hrow : s.rowIdx < Config.maxRows) :
    exec .locate s = .next (s.locateOn (s.rowAt s.rowIdx)) :=
  withRow_next _ hrow

theorem locateOn_pass {row : Bits} (h : search row 0 (patternBits s.isRetx) = some 0) :
    s.locateOn row = { s with bitPos := if s.isRetx then 65 else 25, symCnt := 0, stage := .manch } :=
  if_pos h

theorem locateOn_fail {row : Bits} (h : search row 0 (patternBits s.isRetx) ≠ some 0) :
    s.locateOn row = { s with status := .sanityFailure, failStage := 2, msgValid := false, stage := .done } :=
  if_neg h

/-! ## A row index outside the buffer -/

theorem withRow_fault {r : Nat} (f : Bits → State → State) (h : Config.maxRows ≤ r) :
    withRow r f s = .fault (.noSuchRow r) := by
  rcases withRow_cases r f s with ⟨hlt, -⟩ | ⟨-, hfault⟩
  · omega
  · exact hfault

/-- A fault of the first stage is the fault of the run. -/
theorem runToDone_fault {f : Fault} (hb : s.busy = true) (hstep : stageStep s = .fault f) : runToDone s = .fault f := by
  have hrun (n : Nat) : runStages (n + 1) s = .fault f := by simp [runStages, hb, hstep, andThen]
  exact hrun _

end

/-! ## The statements -/

/-- Settles O14: the search by its least match in bits, and the faults by the one read every operation makes. -/
theorem searchGivesLeastOffset : Obligations.SearchGivesLeastOffset := by
  refine ⟨fun r st pat s hr => ⟨_, exec_search st pat hr, fun k => search_eq_some_iff_bits⟩,
    fun r st pat s hr => withRow_fault _ hr, fun s hr => ⟨fun hlt => ?classify, ?locate, ?decode, fun hcnt => ?symbol⟩⟩
  case classify => exact (if_neg (Nat.not_le.2 hlt)).trans (withRow_fault _ hr)
  case locate => exact withRow_fault _ hr
  case decode => exact runToDone_fault (s := s.goto .locate) rfl (withRow_fault _ hr)
  case symbol => exact ⟨(if_neg (Nat.not_le.2 hcnt)).trans (withRow_fault _ hr),
    (if_neg (Nat.not_le.2 hcnt)).trans (withRow_fault _ hr)⟩

/-- Settles O15: the search from 0 and the read from 0 are the same comparison, and LOCATE branches on the search. -/
theorem searchAtZeroIsPrefixTest : Obligations.SearchAtZeroIsPrefixTest := by
  have hprefix (s : State) (r : Nat) (pat : Bits) :
      search (s.rowAt r) 0 pat = some 0 ↔ s.memRead r 0 pat.length = some pat := by
    rw [search_zero_iff, memRead_zero_eq_some_iff]
  refine ⟨hprefix, fun b row hband => preamble_le_of_band hband, fun s hrow => ?_⟩
  rw [exec_locate hrow]
  split
  case isTrue h => rw [locateOn_pass ((hprefix ..).2 h)]
  case isFalse h => rw [locateOn_fail (mt (hprefix ..).1 h)]

/-- Settles O16: LOCATE in a row of the buffer is its branch on the search. -/
theorem locateComparesAtOffsetZero : Obligations.LocateComparesAtOffsetZero := by
  intro s hrow
  refine ⟨fun hfound => ?pass, fun hmissed => ?fail, rfl, rfl⟩
  case pass => rw [exec_locate hrow, locateOn_pass hfound]
  case fail => rw [exec_locate hrow, locateOn_fail hmissed]

end Sys2Proof.Machine

/-! PROOFS. The statements of 42_manchester.md: one symbol (R150, R158), the decoder as a function and the encoder it reads
back (R151, R157, R160), and what of a short or damaged row it lets through (R154, R155). -/

namespace Sys2Proof.Machine

/-! ## The pair at the cursor -/

section
variable {row : Bits} {pos : Nat}

/-- The pair carries `b` exactly when it is the complement of `b` and then `b` (30_encoding.md R95). -/
theorem symbol_eq_some_iff {b : Bool} : (symbolAt row pos).bind Symbol.dataBit = some b ↔
    row[pos]? = some (!b) ∧ row[pos + 1]? = some b := by
  rcases symbolAt_cases row pos with ⟨a, c, -, ha, hc, hsym⟩ | ⟨hshort, hsym⟩
  · rw [hsym, ha, hc, Option.bind_some, Symbol.dataBit_ofPair]
    cases a <;> cases c <;> simp
  · have hend : row[pos + 1]? = none := List.getElem?_eq_none (by omega)
    simp [hsym, hend]

/-- The pair carries no data bit exactly when fewer than two bits are left or the half-bits are equal
(42_manchester.md R150). -/
theorem symbol_eq_none_iff : (symbolAt row pos).bind Symbol.dataBit = none ↔
    row.length < pos + 2 ∨ row[pos]? = row[pos + 1]? := by
  rcases symbolAt_cases row pos with ⟨a, b, hin, ha, hb, hsym⟩ | ⟨hshort, hsym⟩
  · have hlong : ¬ row.length < pos + 2 := by omega
    rw [hsym, ha, hb, Option.bind_some, Symbol.dataBit_ofPair]
    simp [hlong]
  · simp [hsym, hshort]

/-- Flipping either half-bit of a valid pair leaves two equal half-bits (42_manchester.md R155). -/
theorem symbol_flip {i : Nat} {b c : Bool} (hpair : i = pos ∨ i = pos + 1) (hi : row[i]? = some c)
    (hsym : (symbolAt row pos).bind Symbol.dataBit = some b) :
    (symbolAt (row.set i (!c)) pos).bind Symbol.dataBit = none := by
  obtain ⟨hfirst, hsecond⟩ := symbol_eq_some_iff.1 hsym
  have hin : i < row.length := (List.getElem?_eq_some_iff.1 hi).1
  refine symbol_eq_none_iff.2 (.inr ?_)
  rcases hpair with rfl | rfl
  case inl =>
    obtain rfl : c = !b := Option.some_inj.1 (hi.symm.trans hfirst)
    rw [List.getElem?_set_self hin, List.getElem?_set_ne (by omega), hsecond, Bool.not_not]
  case inr =>
    obtain rfl : c = b := Option.some_inj.1 (hi.symm.trans hsecond)
    rw [List.getElem?_set_self hin, List.getElem?_set_ne (by omega), hfirst]

end

/-! ## MSYM and MANCH as instructions -/

section
variable {s : State}

theorem exec_msym_row (hcnt : s.symCnt < 56) (hrow : s.rowIdx < Config.maxRows) :
    exec .msym s = .next (s.msymOn (s.rowAt s.rowIdx)) :=
  (if_neg (Nat.not_le.2 hcnt)).trans (withRow_next _ hrow)

/-- An accepted symbol (42_manchester.md R150). -/
theorem exec_msym_accept {b : Bool} (hcnt : s.symCnt < 56) (hrow : s.rowIdx < Config.maxRows)
    (hsym : (symbolAt (s.rowAt s.rowIdx) s.bitPos).bind Symbol.dataBit = some b) :
    exec .msym s = .next (s.acceptBit b) := by
  rw [exec_msym_row hcnt hrow]
  rcases State.msymOn_cases (s.rowAt s.rowIdx) hcnt with ⟨c, hc, haccept⟩ | ⟨hnone, -⟩
  · obtain rfl : b = c := Option.some_inj.1 (hsym.symm.trans hc)
    rw [haccept]
  · simp [hnone] at hsym

/-- The failure action where the pair carries no data bit (42_manchester.md R150). -/
theorem exec_msym_fail (hcnt : s.symCnt < 56) (hrow : s.rowIdx < Config.maxRows)
    (hsym : (symbolAt (s.rowAt s.rowIdx) s.bitPos).bind Symbol.dataBit = none) :
    exec .msym s = .next (s.raiseCause .shortManchester) := by
  rw [exec_msym_row hcnt hrow]
  rcases State.msymOn_cases (s.rowAt s.rowIdx) hcnt with ⟨c, hc, -⟩ | ⟨-, hfail⟩
  · simp [hsym] at hc
  · rw [hfail]

theorem exec_manch_full (h : 56 ≤ s.symCnt) : exec .manch s = .next (s.goto .descr) := if_pos h

theorem exec_manch_msym (h : s.symCnt < 56) : exec .manch s = exec .msym s :=
  (if_neg (Nat.not_le.2 h)).trans (if_neg (Nat.not_le.2 h)).symm

end

/-- Settles O17: the three cases are what the pair at the cursor can be. -/
theorem msymDecodesOneSymbol : Obligations.MsymDecodesOneSymbol := by
  intro s hcnt hrow
  refine ⟨fun hshort => ?short, fun a b _ ha hb => ⟨fun heq => ?equal, fun hne => ?unequal⟩⟩
  case short =>
    rw [exec_msym_fail hcnt hrow (symbol_eq_none_iff.2 (.inl hshort))]
    rfl
  case equal =>
    have hpair : (s.rowAt s.rowIdx)[s.bitPos]? = (s.rowAt s.rowIdx)[s.bitPos + 1]? :=
      ha.trans (heq ▸ hb.symm)
    rw [exec_msym_fail hcnt hrow (symbol_eq_none_iff.2 (.inr hpair))]
    rfl
  case unequal =>
    obtain rfl : a = !b := Bool.eq_not.2 hne
    rw [exec_msym_accept hcnt hrow (symbol_eq_some_iff.2 ⟨ha, hb⟩), State.acceptBit, shiftIn_eq_append]

/-- Settles O19: the step branches on the count, and two unequal half-bits inside the row are accepted. -/
theorem manchRunsMsymOrLeaves : Obligations.ManchRunsMsymOrLeaves := by
  intro s
  refine ⟨exec_manch_full, exec_manch_msym, fun hcnt hrow hin hne => ?_⟩
  have hvalid : (symbolAt (s.rowAt s.rowIdx) s.bitPos).bind Symbol.dataBit ≠ none := fun hnone =>
    (symbol_eq_none_iff.1 hnone).elim (Nat.not_lt.2 hin) hne
  obtain ⟨b, hsym⟩ := Option.ne_none_iff_exists'.1 hvalid
  exact ⟨s.acceptBit b, (exec_manch_msym hcnt).trans (exec_msym_accept hcnt hrow hsym), rfl, rfl, rfl⟩

/-! ## The decoder as a function -/

section
variable {row : Bits} {pos n : Nat}

/-- Bit `k` of the decode is the data bit of pair `k` of the grid (42_manchester.md R151). -/
theorem manchesterDecode_symbol {k : Nat} {b : Bool} (hk : (manchesterDecode row pos n).1[k]? = some b) :
    (symbolAt row (pos + 2 * k)).bind Symbol.dataBit = some b := by
  induction n generalizing pos k with
  | zero => simp at hk
  | succ n ih =>
    cases hsym : (symbolAt row pos).bind Symbol.dataBit with
    | none => simp [manchesterDecode_none _ hsym] at hk
    | some c =>
      rw [manchesterDecode_some _ hsym] at hk
      cases k with
      | zero => exact hsym.trans (by simpa using hk)
      | succ k =>
        have hnext := ih (pos := pos + 2) (k := k) (by simpa using hk)
        rwa [show pos + 2 * (k + 1) = pos + 2 + 2 * k by omega]

/-- A decode that ends early ends at a pair that carries no data bit (42_manchester.md R157). -/
theorem manchesterDecode_stops : (manchesterDecode row pos n).1.length = n ∨
    (symbolAt row (pos + 2 * (manchesterDecode row pos n).1.length)).bind Symbol.dataBit = none := by
  induction n generalizing pos with
  | zero => exact .inl rfl
  | succ n ih =>
    cases hsym : (symbolAt row pos).bind Symbol.dataBit with
    | none =>
      rw [manchesterDecode_none _ hsym]
      exact .inr hsym
    | some c =>
      rw [manchesterDecode_some _ hsym, List.length_cons,
        show ∀ m, pos + 2 * (m + 1) = pos + 2 + 2 * m by omega]
      exact (ih (pos := pos + 2)).imp_left (congrArg Nat.succ)

/-- Every pair of a full decode carries a data bit. -/
theorem manchesterDecode_full (hfull : (manchesterDecode row pos n).1.length = n) {k : Nat} (hk : k < n) :
    ∃ b, (symbolAt row (pos + 2 * k)).bind Symbol.dataBit = some b :=
  ⟨_, manchesterDecode_symbol (List.getElem?_eq_getElem (hk.trans_eq hfull.symm))⟩

end

/-- Settles O20: the bits and the end by the pairs of the grid, the stop by what makes a pair carry no bit. -/
theorem manchesterDecodeReadsGrid : Obligations.ManchesterDecodeReadsGrid := by
  intro row start max
  refine ⟨(manchesterDecode row start max).1, Prod.ext rfl (manchesterDecode_end row start max),
    manchesterDecode_length_le row start max, fun k hk => ?grid, manchesterDecode_stops.imp_right symbol_eq_none_iff.1⟩
  case grid =>
    have hbit := List.getElem?_eq_getElem hk
    obtain ⟨hfirst, hsecond⟩ := symbol_eq_some_iff.1 (manchesterDecode_symbol hbit)
    exact ⟨_, _, hfirst, hsecond, Bool.not_ne_self _, hbit⟩

/-! ## The encoder -/

theorem exec_manchEncode (d : Bits) (s : State) :
    exec (.manchEncode d) s = .next { s with returned := .bits (manchEncode d) } := rfl

theorem manchEncode_length (d : Bits) : (manchEncode d).length = 2 * d.length := by
  induction d with
  | nil => rfl
  | cons b d ih => simp only [manchEncode, List.length_cons, ih]; omega

/-- Pair `k` of the encoding is the complement of bit `k` and then bit `k` (42_manchester.md R160). -/
theorem manchEncode_pair {d : Bits} {k : Nat} {b : Bool} (h : d[k]? = some b) :
    (manchEncode d)[2 * k]? = some (!b) ∧ (manchEncode d)[2 * k + 1]? = some b := by
  induction d generalizing k with
  | nil => simp at h
  | cons c d ih =>
    cases k with
    | zero =>
      obtain rfl : c = b := by simpa using h
      exact ⟨rfl, rfl⟩
    | succ k => exact ih (k := k) (by simpa using h)

/-- Settles O21: the encoding by its pairs, the read-back by the decoder's own lemma. -/
theorem manchEncodeReadsBack : Obligations.ManchEncodeReadsBack := fun d s =>
  ⟨manchEncode d, exec_manchEncode d s, manchEncode_length d, fun _ _ => manchEncode_pair,
    fun pre post => manchesterDecode_manchEncode pre d post⟩

/-! ## Short and damaged rows -/

section
variable {row : Bits} {retx : Bool}

/-- A row in band whose decode is not full fails: on its pattern, or else as SHORT_MANCHESTER (46_sequencer.md R200). -/
theorem decodeRows_not_full (hband : bandOf row.length = some retx)
    (hdecode : (manchesterDecode row (dataStartBit retx) 56).1.length ≠ 56) :
    decodeRows [row] = if row.take (preambleBitLength retx) = patternBits retx
      then .integrityFailure .shortManchester else .sanityFailure .preambleNotAt0 := by
  rw [decodeRows_singleton hband, decodeChosen, nSym_eq, if_neg hdecode]

/-- The data field begins behind the pattern and the unexamined bit (00_scope.md R4). -/
theorem preamble_lt_dataStart (b : Bool) : preambleBitLength b < dataStartBit b := by
  cases b <;> decide

/-- A full decode of 56 symbols needs 112 half-bits (42_manchester.md R154). -/
theorem data_inside_of_full {pos : Nat} (hfull : (manchesterDecode row pos 56).1.length = 56) :
    pos + 112 ≤ row.length := by
  obtain ⟨b, hlast⟩ := manchesterDecode_full hfull (k := 55) (by omega)
  have hin := (List.getElem?_eq_some_iff.1 (symbol_eq_some_iff.1 hlast).2).1
  omega

/-- A flipped half-bit cuts the decode short at its own pair (42_manchester.md R155). -/
theorem manchesterDecode_flip {pos n i : Nat} {b : Bool} (hfull : (manchesterDecode row pos n).1.length = n)
    (hlo : pos ≤ i) (hhi : i < pos + 2 * n) (hi : row[i]? = some b) :
    (manchesterDecode (row.set i (!b)) pos n).1.length ≠ n := by
  intro hfull'
  have hk : (i - pos) / 2 < n := by omega
  obtain ⟨c, hvalid⟩ := manchesterDecode_full hfull hk
  obtain ⟨c', hvalid'⟩ := manchesterDecode_full hfull' hk
  have hflipped := symbol_flip (by omega) hi hvalid
  exact absurd (hflipped.symm.trans hvalid') (by simp)

end

/-- Settles O46: the last pair of the grid is not inside the row, so the decode is not full. -/
theorem shortRowNeverSucceeds : Obligations.ShortRowNeverSucceeds := by
  intro retx row hband hshort
  rw [decodeRows_not_full hband fun hfull => absurd (data_inside_of_full hfull) (by omega)]
  split
  case isTrue => exact .inr rfl
  case isFalse => exact .inl rfl

/-- Settles O47: the flip leaves the length and the pattern, and the decode is no longer full. -/
theorem singleBitErrorCaught : Obligations.SingleBitErrorCaught := by
  intro retx row i b hband hpat hfull hlo hhi hi
  have hband' : bandOf (row.set i (!b)).length = some retx := by rwa [List.length_set]
  have hbehind : preambleBitLength retx ≤ i := (preamble_lt_dataStart retx).le.trans hlo
  have hpat' : (row.set i (!b)).take (preambleBitLength retx) = patternBits retx := by
    rwa [List.take_set_of_le hbehind]
  rw [decodeRows_not_full hband' (manchesterDecode_flip hfull hlo hhi hi), if_pos hpat']

end Sys2Proof.Machine

/-! PROOFS. The statements of 43_descrambler.md: the descrambler byte by byte, on the register and bit serially (R165,
R167, R168), the order of a byte-at-a-time form (R166), and the inverse pair with SCRAMBLE (R169, R170). -/

namespace Sys2Proof.Machine

/-! ## The bytes of the two transforms -/

section
variable (v w : Payload)

theorem payloadByte_xor (i : Nat) : payloadByte (v ^^^ w) i = payloadByte v i ^^^ payloadByte w i :=
  BitVec.extractLsb'_xor

/-- The shift fills byte 0 with zeros. -/
theorem payloadByte_shift_zero : payloadByte (v >>> 8) 0 = 0 := by
  apply BitVec.eq_of_getLsbD_eq
  intro j _
  have hhigh : 56 ≤ 8 + (8 * (6 - 0) + j) := by omega
  rw [payloadByte_getLsbD, BitVec.getLsbD_ushiftRight, BitVec.getLsbD_of_ge v _ hhigh]
  simp

/-- The shift moves every byte to the next index (10_state.md R21). -/
theorem payloadByte_shift_succ {i : Nat} (h : i < 6) : payloadByte (v >>> 8) (i + 1) = payloadByte v i := by
  apply BitVec.eq_of_getLsbD_eq
  intro j _
  have hindex : 8 + (8 * (6 - (i + 1)) + j) = 8 * (6 - i) + j := by omega
  rw [payloadByte_getLsbD, payloadByte_getLsbD, BitVec.getLsbD_ushiftRight, hindex]

@[simp] theorem payloadByte_descramble_zero : payloadByte (descramble v) 0 = payloadByte v 0 := by
  simp [descramble]

/-- Every byte but the first is XORed with the scrambled byte before it (43_descrambler.md R165). -/
theorem payloadByte_descramble_succ {i : Nat} (h : i < 6) :
    payloadByte (descramble v) (i + 1) = payloadByte v (i + 1) ^^^ payloadByte v i := by
  interval_cases i <;> simp [descramble]

@[simp] theorem payloadByte_scramble_zero : payloadByte (scramble v) 0 = payloadByte v 0 := by
  simp [scramble]

/-- Every byte but the first is XORed with the result byte before it (43_descrambler.md R169). -/
theorem payloadByte_scramble_succ {i : Nat} (h : i < 6) :
    payloadByte (scramble v) (i + 1) = payloadByte v (i + 1) ^^^ payloadByte (scramble v) i := by
  interval_cases i <;> simp [scramble]

end

/-- DESCR as one operation on the register (43_descrambler.md R167). -/
theorem descramble_eq_xor_shift (v : Payload) : descramble v = v ^^^ (v >>> 8) := by
  refine payload_ext fun i hi => ?_
  rw [payloadByte_xor]
  cases i with
  | zero =>
    rw [payloadByte_descramble_zero, payloadByte_shift_zero]
    exact BitVec.xor_zero.symm
  | succ i => rw [payloadByte_descramble_succ v (by omega), payloadByte_shift_succ v (by omega)]

/-- The running XOR has one solution: its first byte and its recurrence determine all seven bytes. -/
theorem byte_eq_scramble {pt : Payload} {f : Nat → Byte} (hzero : f 0 = payloadByte pt 0)
    (hsucc : ∀ i < 6, f (i + 1) = payloadByte pt (i + 1) ^^^ f i) {i : Nat} (hi : i < 7) :
    f i = payloadByte (scramble pt) i := by
  induction i with
  | zero => rw [hzero, payloadByte_scramble_zero]
  | succ i ih => rw [hsucc i (by omega), ih (by omega), payloadByte_scramble_succ pt (by omega)]

/-! ## The two instructions -/

theorem exec_descr (s : State) : exec .descr s = .next { s with sr := descramble s.sr, stage := .fold } := rfl

theorem exec_scramble (pt : Payload) (s : State) :
    exec (.scramble pt) s = .next { s with returned := .bytes (scramble pt) } := rfl

/-- Settles O23: the bytes by the descrambler's two byte equations, the register by its shift form. -/
theorem descrXorsPreviousScrambledByte : Obligations.DescrXorsPreviousScrambledByte := fun s =>
  ⟨_, exec_descr s, rfl, payloadByte_descramble_zero s.sr, fun _ => payloadByte_descramble_succ s.sr,
    descramble_eq_xor_shift s.sr⟩

/-- Settles O25: the bit eight before `k` is the one the shift brings there, and none is for the first eight. -/
theorem descrambleBitSerial : Obligations.DescrambleBitSerial := by
  intro v k hk
  rw [descramble_eq_xor_shift, BitVec.getLsbD_xor, BitVec.getLsbD_ushiftRight]
  split
  case isTrue hfirst => rw [BitVec.getLsbD_of_ge v (8 + (55 - k)) (by omega), Bool.xor_false]
  case isFalse hlater => rw [show 8 + (55 - k) = 55 - (k - 8) by omega]

/-! ## Scrambling and descrambling undo each other -/

theorem descramble_scramble (pt : Payload) : descramble (scramble pt) = pt := by
  refine payload_ext fun i hi => ?_
  cases i with
  | zero => rw [payloadByte_descramble_zero, payloadByte_scramble_zero]
  | succ i =>
    rw [payloadByte_descramble_succ _ (by omega), payloadByte_scramble_succ pt (by omega), BitVec.xor_assoc,
      BitVec.xor_self, BitVec.xor_zero]

/-- The scrambled bytes solve the recurrence that SCRAMBLE runs on their descrambled ones. -/
theorem scramble_descramble (w : Payload) : scramble (descramble w) = w := by
  have hsucc : ∀ i < 6, payloadByte w (i + 1) = payloadByte (descramble w) (i + 1) ^^^ payloadByte w i := fun i hi => by
    rw [payloadByte_descramble_succ w hi, BitVec.xor_assoc, BitVec.xor_self, BitVec.xor_zero]
  exact payload_ext fun i hi => (byte_eq_scramble (payloadByte_descramble_zero w).symm hsucc hi).symm

/-- Settles O26: SCRAMBLE gives the running XOR, and both round trips hold byte by byte. -/
theorem scrambleInvertsDescramble : Obligations.ScrambleInvertsDescramble :=
  ⟨fun pt s => ⟨scramble pt, exec_scramble pt s, payloadByte_scramble_zero pt, fun _ => payloadByte_scramble_succ pt,
    descramble_scramble pt⟩, scramble_descramble⟩

/-! ## One byte at a time -/

theorem payloadBytes_getD (v : Payload) {i : Nat} (h : i < 7) : (payloadBytes v).getD i 0 = payloadByte v i := by
  interval_cases i <;> rfl

theorem eq_payloadBytes {b : List Byte} {v : Payload} (hlen : b.length = 7)
    (hbytes : ∀ i < 7, b.getD i 0 = payloadByte v i) : b = payloadBytes v := by
  refine List.ext_getElem hlen fun i hi hi' => ?_
  rw [← List.getD_eq_getElem b 0 hi, ← List.getD_eq_getElem _ 0 hi', hbytes i hi', payloadBytes_getD v hi']

section
variable {b : List Byte} {n i : Nat}

/-- The byte that is overwritten holds what was written there. -/
theorem getD_set_self (h : i < b.length) (x : Byte) : (b.set i x).getD i 0 = x := by
  rw [List.getD_eq_getElem _ 0 (by rwa [List.length_set]), List.getElem_set_self]

/-- The other bytes stay. -/
theorem getD_set_ne {j : Nat} (h : i ≠ j) (x : Byte) : (b.set i x).getD j 0 = b.getD j 0 := by
  rw [List.getD_eq_getElem?_getD, List.getD_eq_getElem?_getD, List.getElem?_set_ne h]

@[simp] theorem inPlaceXor_length (order : List Nat) : (inPlaceXor order b).length = b.length := by
  induction order generalizing b with
  | nil => rfl
  | cons i order ih => exact ih.trans List.length_set

/-- A byte whose index is not in the order is never overwritten. -/
theorem inPlaceXor_frame {order : List Nat} (h : i ∉ order) : (inPlaceXor order b).getD i 0 = b.getD i 0 := by
  induction order generalizing b with
  | nil => rfl
  | cons k order ih =>
    obtain ⟨hne, hmem⟩ := not_or.1 (mt List.mem_cons.2 h)
    exact (ih hmem).trans (getD_set_ne (Ne.symm hne) _)

/-- Downward a byte is read before it is overwritten: the XOR is with the old value (43_descrambler.md R166). -/
theorem inPlaceXor_down (hn : n < b.length) (hi : i < n) :
    (inPlaceXor (List.range' 1 n).reverse b).getD (i + 1) 0 = b.getD (i + 1) 0 ^^^ b.getD i 0 := by
  induction n generalizing b with
  | zero => omega
  | succ n ih =>
    rw [List.range'_1_concat, List.reverse_concat, Nat.add_comm 1 n]
    rcases Nat.lt_succ_iff_lt_or_eq.1 hi with hlt | rfl
    · refine (ih (b := b.set (n + 1) _) (by rw [List.length_set]; omega) hlt).trans ?_
      rw [getD_set_ne (by omega), getD_set_ne (by omega)]
    · have hfresh : i + 1 ∉ (List.range' 1 i).reverse := by simp; omega
      exact (inPlaceXor_frame hfresh).trans (getD_set_self hn _)

/-- Upward a byte is overwritten before it is read: the XOR is with the new value (43_descrambler.md R166). -/
theorem inPlaceXor_up (hn : n < b.length) (hi : i < n) : (inPlaceXor (List.range' 1 n) b).getD (i + 1) 0 =
    b.getD (i + 1) 0 ^^^ (inPlaceXor (List.range' 1 n) b).getD i 0 := by
  induction n with
  | zero => omega
  | succ n ih =>
    have hlast : inPlaceXor (List.range' 1 (n + 1)) b = inPlaceXor [n + 1] (inPlaceXor (List.range' 1 n) b) := by
      rw [List.range'_1_concat, Nat.add_comm 1 n]
      exact List.foldl_append
    have hkept {j : Nat} (hj : j ≤ n) : (inPlaceXor (List.range' 1 (n + 1)) b).getD j 0 =
        (inPlaceXor (List.range' 1 n) b).getD j 0 := by
      rw [hlast, inPlaceXor_frame (by simp; omega)]
    rcases Nat.lt_succ_iff_lt_or_eq.1 hi with hlt | rfl
    · rw [hkept (j := i + 1) hlt, hkept hlt.le, ih (by omega) hlt]
    · have hfresh : i + 1 ∉ List.range' 1 i := by simp; omega
      rw [hkept le_rfl, hlast, ← inPlaceXor_frame (b := b) hfresh]
      exact getD_set_self (by rwa [inPlaceXor_length]) _

end

/-- Settles O24: downward the bytes meet the equations of the descrambler, upward the recurrence of the scrambler. -/
theorem descrambleOrderMatters : Obligations.DescrambleOrderMatters := by
  intro v
  have hbyte {i : Nat} (hi : i < 7) := payloadBytes_getD v hi
  refine ⟨eq_payloadBytes (inPlaceXor_length _) fun i hi => ?down, eq_payloadBytes (inPlaceXor_length _) fun i hi => ?up⟩
  case down =>
    cases i with
    | zero => rw [inPlaceXor_frame (by decide), hbyte hi, payloadByte_descramble_zero]
    | succ i =>
      rw [payloadByte_descramble_succ v (by omega), ← hbyte hi, ← hbyte (i := i) (by omega)]
      exact inPlaceXor_down (n := 6) (Nat.lt_succ_self 6) (by omega)
  case up =>
    refine byte_eq_scramble (f := fun i => (inPlaceXor [1, 2, 3, 4, 5, 6] (payloadBytes v)).getD i 0) ?first
      (fun i hi => ?next) hi
    case first => exact (inPlaceXor_frame (by decide)).trans (hbyte (by decide))
    case next =>
      rw [← hbyte (i := i + 1) (by omega)]
      exact inPlaceXor_up (n := 6) (Nat.lt_succ_self 6) hi

end Sys2Proof.Machine

/-! PROOFS. The statements of 44_checksum.md: the step FOLD (R176), the XOR trees of the fold (R177), the telescoping
after DESCR (R178), the order of the bytes (R179), and the error patterns the fold catches (R180). -/

namespace Sys2Proof.Machine

/-! ## The two nibbles of a byte -/

section
variable (x : Byte)

theorem and_low_eq_setWidth : x &&& 0x0F#8 = (x.extractLsb' 0 4).setWidth 8 := by
  rw [show 0x0F#8 = (BitVec.allOnes 4).setWidth 8 from rfl]
  apply BitVec.eq_of_getLsbD_eq
  intro j hj
  simp only [BitVec.getLsbD_and, BitVec.getLsbD_setWidth, BitVec.getLsbD_extractLsb', BitVec.getLsbD_allOnes, hj,
    decide_true, Bool.true_and, Nat.zero_add]
  exact Bool.and_comm _ _

theorem shift_high_eq_setWidth : x >>> 4 = (x.extractLsb' 4 4).setWidth 8 := by
  apply BitVec.eq_of_getLsbD_eq
  intro j hj
  simp only [BitVec.getLsbD_ushiftRight, BitVec.getLsbD_setWidth, BitVec.getLsbD_extractLsb', hj, decide_true,
    Bool.true_and]
  by_cases hlow : j < 4
  · simp [hlow]
  · simp [hlow, BitVec.getLsbD_of_ge x (4 + j) (by omega)]

/-- The eight bits of 44_checksum.md R175 are the XOR of the two nibbles, its upper half zero. -/
theorem nibbleSum_eq_setWidth :
    (x &&& 0x0F#8) ^^^ (x >>> 4) = (x.extractLsb' 0 4 ^^^ x.extractLsb' 4 4).setWidth 8 := by
  rw [and_low_eq_setWidth, shift_high_eq_setWidth, BitVec.setWidth_xor]

end

/-! ## The fold by the nibbles of the XOR of the bytes -/

section
variable (v w : Payload)

theorem foldNibble_eq_nibbles :
    foldNibble v = (xorBytes v).extractLsb' 0 4 ^^^ (xorBytes v).extractLsb' 4 4 := by
  rw [foldNibble, nibbleSum_eq_setWidth, BitVec.setWidth_setWidth_of_le _ (by decide), BitVec.setWidth_eq]

/-- No bit is lost when the sum of the nibbles is cut to four. -/
theorem foldNibble_eq_zero_iff :
    foldNibble v = 0 ↔ (xorBytes v &&& 0x0F#8) ^^^ (xorBytes v >>> 4) = 0#8 := by
  constructor
  · intro h
    rw [nibbleSum_eq_setWidth, ← foldNibble_eq_nibbles, h]
    rfl
  · intro h
    rw [foldNibble, h]
    rfl

theorem foldNibble_getLsbD {j : Nat} (hj : j < 4) :
    (foldNibble v).getLsbD j = ((xorBytes v).getLsbD j ^^ (xorBytes v).getLsbD (j + 4)) := by
  rw [foldNibble_eq_nibbles, BitVec.getLsbD_xor, BitVec.getLsbD_extractLsb', BitVec.getLsbD_extractLsb',
    decide_eq_true hj, Bool.true_and, Bool.true_and, Nat.zero_add, Nat.add_comm 4 j]

theorem foldNibble_eq_zero_iff_bits : foldNibble v = 0 ↔ ∀ j < 4, (foldNibble v).getLsbD j = false := by
  constructor
  · intro h j _
    rw [h]
    exact BitVec.getLsbD_zero
  · intro h
    refine BitVec.eq_of_getLsbD_eq fun j hj => ?_
    rw [h j hj]
    exact BitVec.getLsbD_zero.symm

theorem xorBytes_xor : xorBytes (v ^^^ w) = xorBytes v ^^^ xorBytes w := by
  simp only [xorBytes, payloadByte_xor]
  ac_rfl

/-- The fold is linear: an error pattern adds its own fold (44_checksum.md R180). -/
theorem foldNibble_xor : foldNibble (v ^^^ w) = foldNibble v ^^^ foldNibble w := by
  simp only [foldNibble_eq_nibbles, xorBytes_xor, BitVec.extractLsb'_xor]
  ac_rfl

end

/-! ## FOLD -/

theorem exec_fold (s : State) : exec .fold s =
    .next (if foldNibble s.sr = 0 then s.goto .slice else s.raiseCause .checksumNonzero) := rfl

/-- Settles O27: the fold FOLD tests is 0 exactly when the nibble sum of the byte XOR is. -/
theorem foldDecidesOnNibbleSum : Obligations.FoldDecidesOnNibbleSum := by
  rintro s _ rfl
  refine ⟨fun hsum => ?pass, fun hsum => ?fail⟩
  case pass =>
    rw [exec_fold, if_pos ((foldNibble_eq_zero_iff s.sr).2 hsum)]
    rfl
  case fail =>
    rw [exec_fold, if_neg (mt (foldNibble_eq_zero_iff s.sr).1 hsum)]
    rfl

/-! ## XOR over a list -/

section
variable {α : Type} (l : List α)

/-- Two XOR trees over the same inputs make one tree. -/
theorem foldl_xor_xor (f g : α → Bool) (a b : Bool) : l.foldl (fun acc x => acc ^^ (f x ^^ g x)) (a ^^ b) =
    (l.foldl (fun acc x => acc ^^ f x) a ^^ l.foldl (fun acc x => acc ^^ g x) b) := by
  induction l generalizing a b with
  | nil => rfl
  | cons x l ih =>
    have hswap : (a ^^ b ^^ (f x ^^ g x)) = ((a ^^ f x) ^^ (b ^^ g x)) := by
      rw [Bool.xor_assoc, Bool.xor_assoc, Bool.xor_left_comm b]
    rw [List.foldl_cons, hswap, ih]
    rfl

/-- An XOR tree is the parity of its ones. -/
theorem foldl_xor_eq_odd_countP (p : α → Bool) (a : Bool) :
    l.foldl (fun acc x => acc ^^ p x) a = (a ^^ decide (Odd (l.countP p))) := by
  induction l generalizing a with
  | nil => simp
  | cons x l ih =>
    rw [List.foldl_cons, ih, List.countP_cons]
    cases hp : p x with
    | false => simp
    | true => simp only [if_true, Nat.odd_add_one, decide_not, Bool.xor_assoc, Bool.true_xor]

theorem foldl_xor_eq_false_iff_even (p : α → Bool) :
    l.foldl (fun acc x => acc ^^ p x) false = false ↔ Even (l.countP p) := by
  rw [foldl_xor_eq_odd_countP, Bool.false_xor, decide_eq_false_iff_not, Nat.not_odd_iff_even]

end

/-! ## The fold as four XOR trees -/

section
variable (v : Payload)

theorem xorBytes_getLsbD (k : Nat) : (xorBytes v).getLsbD k =
    (List.range 7).foldl (fun acc i => acc ^^ (payloadByte v i).getLsbD k) false := by
  simp [xorBytes, List.range_succ]

/-- The tree over the bytes (44_checksum.md R177). -/
theorem foldNibble_getLsbD_bytes {j : Nat} (hj : j < 4) : (foldNibble v).getLsbD j = (List.range 7).foldl
    (fun acc i => acc ^^ ((payloadByte v i).getLsbD j ^^ (payloadByte v i).getLsbD (j + 4))) false := by
  rw [foldNibble_getLsbD v hj, xorBytes_getLsbD, xorBytes_getLsbD]
  exact (foldl_xor_xor _ _ _ false false).symm

/-- Byte `i` is the nibbles `2 (6 - i)` and `2 (6 - i) + 1` of the register (10_state.md R21). -/
theorem range_perm_nibblesOfBytes :
    ((List.range 7).flatMap fun i => [2 * (6 - i), 2 * (6 - i) + 1]).Perm (List.range 14) := by
  decide

theorem payloadByte_getLsbD_low (i : Nat) {j : Nat} (hj : j < 4) :
    (payloadByte v i).getLsbD j = v.getLsbD (4 * (2 * (6 - i)) + j) := by
  rw [payloadByte_getLsbD, decide_eq_true (by omega), Bool.true_and, ← Nat.mul_assoc]

theorem payloadByte_getLsbD_high (i : Nat) {j : Nat} (hj : j < 4) :
    (payloadByte v i).getLsbD (j + 4) = v.getLsbD (4 * (2 * (6 - i) + 1) + j) := by
  rw [payloadByte_getLsbD, decide_eq_true (by omega), Bool.true_and]
  congr 1
  omega

/-- The tree over the register: the tree over the bytes with each byte's two nibbles written out, in another order
(44_checksum.md R177). -/
theorem foldNibble_getLsbD_register {j : Nat} (hj : j < 4) : (foldNibble v).getLsbD j =
    (List.range 14).foldl (fun acc m => acc ^^ v.getLsbD (4 * m + j)) false := by
  have horder := range_perm_nibblesOfBytes.foldl_eq' (f := fun acc m => acc ^^ v.getLsbD (4 * m + j))
    (fun _ _ _ _ acc => Bool.xor_right_comm acc _ _) false
  rw [foldNibble_getLsbD_bytes v hj, ← horder, List.foldl_flatMap]
  simp only [payloadByte_getLsbD_low v _ hj, payloadByte_getLsbD_high v _ hj, List.foldl_cons, List.foldl_nil,
    Bool.xor_assoc]

end

/-- Settles O28. -/
theorem foldIsXorTree : Obligations.FoldIsXorTree := fun v =>
  ⟨fun _ hj => ⟨foldNibble_getLsbD_register v hj, foldNibble_getLsbD_bytes v hj⟩, foldNibble_eq_zero_iff_bits v⟩

/-- Settles O31: the fold after the error is the error's own fold, whose trees are the parities of its ones. -/
theorem foldCatchesOddErrors : Obligations.FoldCatchesOddErrors := by
  intro v e hv
  have hfold : foldNibble (v ^^^ e) = foldNibble e := by
    rw [foldNibble_xor, hv]
    exact BitVec.zero_xor
  rw [hfold, foldNibble_eq_zero_iff_bits]
  refine forall₂_congr fun j hj => ?_
  rw [foldNibble_getLsbD_register e hj, foldl_xor_eq_false_iff_even]

/-! ## The fold after DESCR -/

/-- The XOR of the plaintext bytes telescopes: each byte cancels the scrambled byte before it (44_checksum.md R178). -/
theorem xorBytes_descramble (v : Payload) : xorBytes (descramble v) = payloadByte v 6 := by
  have hcancel (a b : Byte) : a ^^^ (b ^^^ a) = b := by
    rw [BitVec.xor_comm b a, ← BitVec.xor_assoc, BitVec.xor_self, BitVec.zero_xor]
  simp only [xorBytes, payloadByte_descramble_zero, payloadByte_descramble_succ, Nat.reduceLT, hcancel]

/-- Settles O29: the fold is that of the last scrambled byte, and an XOR is 0 exactly when its operands are equal. -/
theorem foldOfDescrambledIsLastByte : Obligations.FoldOfDescrambledIsLastByte := by
  intro v
  have hfold : foldNibble (descramble v) = (payloadByte v 6).extractLsb' 0 4 ^^^ (payloadByte v 6).extractLsb' 4 4 := by
    rw [foldNibble_eq_nibbles, xorBytes_descramble]
  refine ⟨xorBytes_descramble v, hfold, ?_⟩
  rw [hfold]
  exact BitVec.xor_eq_zero_iff

/-! ## The order of the bytes -/

theorem xorBytes_eq_foldl (v : Payload) : xorBytes v = (payloadBytes v).foldl (· ^^^ ·) 0 := by
  simp [xorBytes, payloadBytes]

theorem payloadBytes_ofBytes_ofFn (b : Fin 7 → Byte) :
    payloadBytes (ofBytes (b 0) (b 1) (b 2) (b 3) (b 4) (b 5) (b 6)) = List.ofFn b := by
  simp [payloadBytes, List.ofFn_succ]

/-- The fold is a function of the bytes without their order (44_checksum.md R179). -/
theorem foldNibble_eq_of_perm {v w : Payload} (h : (payloadBytes v).Perm (payloadBytes w)) :
    foldNibble v = foldNibble w := by
  rw [foldNibble, foldNibble, xorBytes_eq_foldl, xorBytes_eq_foldl, h.foldl_op_eq]

/-- Settles O30: permuting the indices permutes the list of the bytes. -/
theorem foldIgnoresByteOrder : Obligations.FoldIgnoresByteOrder := by
  intro b σ
  apply foldNibble_eq_of_perm
  have hperm : (List.ofFn (b ∘ σ)).Perm (List.ofFn b) := σ.ofFn_comp_perm b
  rwa [← payloadBytes_ofBytes_ofFn b, ← payloadBytes_ofBytes_ofFn (b ∘ σ)] at hperm

end Sys2Proof.Machine

/-! PROOFS. The statements of 45_slicer.md: the ports with and without a message (R185, R197), the hold of the result in
DONE, the characters of HEXUP (R191), and the record of the reporting layer (R193, R195, R196). -/

namespace Sys2Proof.Machine

/-! ## What the ports show -/

section
variable {s t : State}

/-- The ports of a published message: the fields of the payload (45_slicer.md R185). -/
theorem State.outputs_valid (h : s.msgValid = true) :
    s.outputs = portsOf (messageOf s.sr s.isRetx) true s.status s.failStage s.busy s.done := by
  rw [State.outputs, State.message, if_pos h, h]

/-- The ports without a message: the zero message (45_slicer.md R197). -/
theorem State.outputs_invalid (h : s.msgValid = false) :
    s.outputs = portsOf .zero false s.status s.failStage s.busy s.done := by
  rw [State.outputs, State.message, h, if_neg Bool.false_ne_true]

/-- The ports show the stage, the result registers, the payload and `is_retx`, and nothing else (10_state.md R34). -/
theorem State.outputs_congr (hstage : t.stage = s.stage) (hretx : t.isRetx = s.isRetx) (hsr : t.sr = s.sr)
    (hstatus : t.status = s.status) (hfail : t.failStage = s.failStage) (hvalid : t.msgValid = s.msgValid) :
    t.outputs = s.outputs := by
  simp only [State.outputs, State.message, State.busy, State.done, hstage, hretx, hsr, hstatus, hfail, hvalid]

@[simp] theorem State.outputs_popInput (s : State) : s.popInput.outputs = s.outputs := rfl

/-- Settles O38. -/
theorem portsZeroWithoutMessage : Obligations.PortsZeroWithoutMessage := by
  intro s h
  rw [State.outputs_invalid h]
  exact ⟨rfl, rfl, rfl, rfl, rfl, rfl, rfl, rfl⟩

/-! ## The hold of the result -/

/-- A command on the write port leaves the ports alone, accepted or ignored: it writes the row buffer only. -/
theorem exec_hostWrite_outputs {w : HostWrite} (h : exec w.instr s = .next t) : t.outputs = s.outputs := by
  rcases exec_hostWrite_cases h with rfl | ⟨-, r, bits, -, -, rfl⟩ | ⟨-, n, -, rfl⟩
  · rfl
  · exact State.outputs_congr rfl rfl rfl rfl rfl rfl
  · exact State.outputs_congr rfl rfl rfl rfl rfl rfl

/-- A command on the write port never stops the block. -/
theorem exec_hostWrite_next (w : HostWrite) (s : State) : ∃ t, exec w.instr s = .next t := by
  cases w with
  | loadRow r bits => exact ⟨_, exec_loadrow r bits s⟩
  | setNRows n => exact ⟨_, exec_setnrows n s⟩

theorem exec_doneHold (s : State) : exec .doneHold s = .next s := rfl

/-- Without reset and START the operations of a step in DONE are the host write, if one is driven, and DONE_HOLD. -/
theorem fetch_done (hs : s.stage = .done) (hr : s.currentInput.rst = false) (hst : s.currentInput.start = false) :
    s.fetch = s.currentInput.write.toList.map HostWrite.instr ++ [.doneHold] := by
  simp only [State.fetch, hr, hst, hs, hostInInstr, stageInstr]

/-- The ports hold in DONE until the next START or reset (46_sequencer.md R218). -/
theorem step_done_outputs (hs : s.stage = .done) (hr : s.currentInput.rst = false)
    (hst : s.currentInput.start = false) : ∃ t, step s = .next t ∧ t.outputs = s.outputs := by
  rw [step, fetch_done hs hr hst]
  cases s.currentInput.write with
  | none =>
    have hrun : runAll [.doneHold] s.popInput = .next s.popInput := runAll_singleton _ _
    exact ⟨s.popInput, hrun, s.outputs_popInput⟩
  | some w =>
    obtain ⟨t, ht⟩ := exec_hostWrite_next w s.popInput
    have hrun : runAll [w.instr, .doneHold] s.popInput = .next t := by
      rw [runAll, ht, andThen_next, runAll_singleton, exec_doneHold]
    exact ⟨t, hrun, (exec_hostWrite_outputs ht).trans s.outputs_popInput⟩

end

/-! ## SLICE -/

theorem exec_slice (s : State) : exec .slice s = .next s.publish := rfl

/-- Settles O32: SLICE is `State.publish`, the ports are read off the payload, and a step in DONE keeps them. -/
theorem slicePublishesMessage : Obligations.SlicePublishesMessage := by
  refine ⟨exec_slice, fun s h => ?ports, fun s => step_done_outputs⟩
  rw [State.outputs_valid h]
  exact ⟨rfl, rfl, rfl, rfl, rfl, rfl, rfl, rfl⟩

/-! ## HEXUP -/

theorem exec_hexup (n : Nibble) (s : State) : exec (.hexup n) s = .next (s.giving (.character (hexUp n))) := rfl

/-- The digits "0" to "9" (45_slicer.md R191). -/
theorem hexUp_toNat_of_le {n : Nibble} (h : n.toNat ≤ 9) : (hexUp n).toNat = 0x30 + n.toNat := by
  rw [hexUp, if_pos h, BitVec.toNat_ofNat]
  omega

/-- The digits "A" to "F" (45_slicer.md R191). -/
theorem hexUp_toNat_of_ge {n : Nibble} (h : 10 ≤ n.toNat) : (hexUp n).toNat = 0x41 + (n.toNat - 10) := by
  have hlt : n.toNat < 16 := n.isLt
  rw [hexUp, if_neg (by omega), BitVec.toNat_ofNat]
  omega

/-- Settles O33. -/
theorem hexupGivesAsciiDigit : Obligations.HexupGivesAsciiDigit := fun n s =>
  ⟨hexUp n, exec_hexup n s, hexUp_toNat_of_le, hexUp_toNat_of_ge⟩

/-! ## The record of the reporting layer -/

section
variable {s : State}

/-- A success makes a record, from the message on the ports (45_slicer.md R193). -/
theorem State.hostRecord_success (h : s.status = .success) : s.hostRecord = some (recordOf s.message) := if_pos h

/-- Anything else makes none (45_slicer.md R193). -/
theorem State.hostRecord_none (h : s.status ≠ .success) : s.hostRecord = none := if_neg h

theorem HostRecord.display_names (r : HostRecord) :
    r.display.map Prod.fst = ["model", "control", "counter", "address", "retransmission"] := rfl

end

/-- Settles O39: the record is built from the message, and the message ports are its fields. -/
theorem hostRecordFromPorts : Obligations.HostRecordFromPorts := by
  refine ⟨fun s => State.hostRecord_none, fun s hs _ => ⟨recordOf s.message, State.hostRecord_success hs, ?fields⟩⟩
  exact ⟨rfl, rfl, rfl, rfl, rfl, rfl, rfl, HostRecord.display_names _⟩

end Sys2Proof.Machine

/-! PROOFS. The statements of 46_sequencer.md: what a step runs (R201, R202), START and the waiting stages (R203, R213, R218),
that no good state stops (R204), and that an invocation computes `Decode(B)` (R200, R214, R219). -/

namespace Sys2Proof.Machine

/-! ## The operations of a step -/

/-- The code in the stage register is the code word of the stage's operation. -/
theorem decode_stageCode (st : Stage) :
    decode ⟨.stage, bitsMsb 3 st.code.toNat, .none⟩ = .ok (stageInstr st) := by
  cases st <;> rfl

/-- Settles O60: the decoder reads the operations the step selects, and the step runs them one after the other. -/
theorem stepRunsDecodedOperations : Obligations.StepRunsDecodedOperations := by
  intro s i
  have hstart {h : Instr} (hd : decode ⟨.hostIn, [false, true], .none⟩ = .ok h) : .start = h :=
    Except.ok.inj ((decodeOfEncode .start rfl).symm.trans hd)
  have hstage (hd : decode ⟨.stage, bitsMsb 3 s.stage.code.toNat, .none⟩ = .ok i) : stageInstr s.stage = i :=
    Except.ok.inj ((decode_stageCode s.stage).symm.trans hd)
  have hlast : runAll [i] = exec i := funext (runAll_singleton i)
  refine ⟨fun x hr _ hd => ?reset, fun hin hd => ?nothing, fun h hin hh hd => ?start, fun w hin hd => ?write,
    fun w h hin hh hd => ?both⟩
  case reset =>
    obtain rfl : .reset x = i := Except.ok.inj ((decodeOfEncode (.reset x) rfl).symm.trans hd)
    exact step_of_rst hr
  case nothing =>
    rw [step, State.fetch, hin, hstage hd]
    exact congrFun hlast _
  case start =>
    rw [step, State.fetch, hin, hstage hd, ← hstart hh, ← hlast]
    rfl
  case write =>
    rw [step, State.fetch, hin, hstage hd, ← hlast]
    rfl
  case both =>
    rw [step, State.fetch, hin, hstage hd, ← hstart hh, ← hlast]
    rfl

/-! ## A step of a busy block -/

/-- Settles O4: with and without `start` the step is RESET, or the stage step on the same state. -/
theorem stepIgnoresStartWhileBusy : Obligations.StepIgnoresStartWhileBusy := by
  intro s rst w rest hb
  cases rst with
  | true =>
    have hreset (start : Bool) : step { s with inputs := ⟨true, start, w⟩ :: rest } =
        .next { s with inputs := rest }.resetAll := step_of_rst rfl
    rw [hreset, hreset]
  | false =>
    have hstage (start : Bool) : step { s with inputs := ⟨false, start, w⟩ :: rest } =
        stageStep { s with inputs := rest } := step_of_busy hb rfl
    rw [hstage, hstage]

/-! ## A step of a block that is not busy -/

/-- The state after the command on the write port, if one is driven (20_memory.md R66, R67). -/
def State.hostWritten (s : State) : Option HostWrite → State
  | none => s
  | some (.loadRow r bits) => s.loadRow r bits
  | some (.setNRows n) => s.setNumRows n

/-- A command on the write port always answers a next state. -/
theorem runAll_hostWrite (w : Option HostWrite) (is : List Instr) (s : State) :
    runAll (w.toList.map HostWrite.instr ++ is) s = runAll is (s.hostWritten w) := by
  match w with
  | none => rfl
  | some (.loadRow r bits) => rfl
  | some (.setNRows n) => rfl

section
variable {s : State}

/-- A command on the write port writes the row buffer and nothing else. -/
theorem State.hostWritten_frame (w : Option HostWrite) :
    s.hostWritten w = { s with rows := (s.hostWritten w).rows, numRows := (s.hostWritten w).numRows } := by
  match w with
  | none => rfl
  | some (.loadRow r bits) =>
    rcases State.loadRow_cases r bits s with ⟨-, -, -, e⟩ | e <;> rw [State.hostWritten, e]
    rfl
  | some (.setNRows n) =>
    rcases State.setNumRows_cases n s with ⟨-, -, e⟩ | e <;> rw [State.hostWritten, e]
    rfl

theorem State.hostWritten_stage (w : Option HostWrite) : (s.hostWritten w).stage = s.stage := by
  rw [State.hostWritten_frame]

theorem State.hostWritten_inputs (w : Option HostWrite) : (s.hostWritten w).inputs = s.inputs := by
  rw [State.hostWritten_frame]

theorem State.hostWritten_busy (w : Option HostWrite) : (s.hostWritten w).busy = s.busy := by
  rw [State.busy, State.hostWritten_stage, State.busy]

/-- The operation of IDLE and DONE changes nothing, whatever the registers hold. -/
theorem exec_stageInstr_of_free (hb : s.busy = false) (v : State) : exec (stageInstr s.stage) v = .next v := by
  rcases busy_eq_false.1 hb with hs | hs <;> rw [hs] <;> rfl

/-- Without `rst` and `start` a step of a block that is not busy is the host write. -/
theorem step_of_free_hold (hb : s.busy = false) (hr : s.currentInput.rst = false)
    (hst : s.currentInput.start = false) : step s = .next (s.popInput.hostWritten s.currentInput.write) := by
  have hfetch : s.fetch = s.currentInput.write.toList.map HostWrite.instr ++ [stageInstr s.stage] := by
    simp only [State.fetch, hr, hst, hostInInstr]
  rw [step, hfetch, runAll_hostWrite, runAll_singleton, exec_stageInstr_of_free hb]

/-- With `start` and no `rst` a step of a block that is not busy is the host write and then the wipe of the core registers
(46_sequencer.md R203). -/
theorem step_of_free_start (hb : s.busy = false) (hr : s.currentInput.rst = false)
    (hst : s.currentInput.start = true) :
    step s = .next (s.popInput.hostWritten s.currentInput.write).startClear := by
  have hfetch : s.fetch = s.currentInput.write.toList.map HostWrite.instr ++ [.start, stageInstr s.stage] := by
    simp only [State.fetch, hr, hst, hostInInstr]
  have hfree : (s.popInput.hostWritten s.currentInput.write).busy = false :=
    (State.hostWritten_busy _).trans hb
  rw [step, hfetch, runAll_hostWrite, runAll, exec, execStart, State.acceptStart_free hfree, andThen_next,
    runAll_singleton, exec_stageInstr_of_free hb]

end

theorem exec_start_free {s : State} (hb : s.busy = false) : exec .start s = .next s.startClear :=
  congrArg Host.Outcome.next (State.acceptStart_free hb)

/-- Settles O3: an accepted START is `State.startClear`; the payload bytes, the message and the rows are views of it. -/
theorem startWipesCoreRegisters : Obligations.StartWipesCoreRegisters :=
  ⟨fun _ hb => ⟨_, exec_start_free hb, rfl, fun i _ => payloadByte_zero i, rfl, rfl⟩, fun _ => exec_start_busy⟩

/-- Settles O10. -/
theorem waitingStagesHold : Obligations.WaitingStagesHold := by
  refine ⟨fun s => rfl, exec_doneHold, fun s hb hin => ?_⟩
  rw [step_of_free_hold hb (by rw [hin]) (by rw [hin]), hin]
  rfl

/-- Settles O11: the step is the host write, which leaves every register the ports show alone. -/
theorem doneHoldsResult : Obligations.DoneHoldsResult := by
  intro s hs hr hst
  have hframe := State.hostWritten_frame (s := s.popInput) s.currentInput.write
  refine ⟨_, step_of_free_hold (busy_eq_false.2 (.inr hs)) hr hst, hframe, ?_⟩
  rw [hframe]
  exact State.outputs_congr rfl rfl rfl rfl rfl rfl

/-- Settles O6: the step is the accepted LOADROW and then the wipe, which leaves the rows alone. -/
theorem startSeesWriteOfSameStep : Obligations.StartSeesWriteOfSameStep := by
  intro s r bits rest hb hin hr hlen
  have hcur : s.currentInput = ⟨false, true, some (.loadRow r bits)⟩ := by rw [State.currentInput, hin]
  have hwrite : s.popInput.hostWritten s.currentInput.write = s.popInput.writeRow r bits := by
    rw [hcur]
    exact State.loadRow_accepted ⟨hb, hr, hlen⟩
  have hstep := step_of_free_start hb (by rw [hcur]) (by rw [hcur])
  rw [hwrite] at hstep
  refine ⟨_, hstep, rfl, rfl, rfl, rfl, congrArg List.tail hin, rfl, ?row, fun r' hr' => ?others⟩
  case row => rw [State.rowAt_startClear, State.rowAt_writeRow_same]
  case others => rw [State.rowAt_startClear, State.rowAt_writeRow_other bits s.popInput hr', State.rowAt_popInput]

/-! ## No good state stops -/

/-- With all 56 symbols in MANCH leaves (42_manchester.md R158). -/
theorem stageStep_manch_full {s : State} (hs : s.stage = .manch) (h : 56 ≤ s.symCnt) :
    stageStep s = .next (s.goto .descr) := by
  rw [stageStep, hs]
  exact exec_manch_full h

section
variable {s : State} (h : s.Inv)
include h

/-- The row chosen by CLASSIFY is a row of the buffer (20_memory.md R68). -/
theorem State.Inv.rowIdx_lt (hs : rowChosen s.stage = true) : s.rowIdx < Config.maxRows :=
  (h.chosen hs).1.trans_le h.numRows_le

/-- Every stage operation answers a next state (46_sequencer.md R204): a row is read only where it is in the buffer. -/
theorem State.Inv.stageStep_next : ∃ t, stageStep s = .next t := by
  cases hs : s.stage with
  | classify =>
    rcases Nat.lt_or_ge s.rowIdx s.numRows with hlt | hend
    · exact ⟨_, stageStep_classify_row hs hlt (hlt.trans_le h.numRows_le)⟩
    · exact ⟨_, stageStep_classify_end hs hend⟩
  | locate => exact ⟨_, stageStep_locate hs (h.rowIdx_lt (by rw [hs]; rfl))⟩
  | manch =>
    rcases Nat.lt_or_ge s.symCnt 56 with hlt | hfull
    · exact ⟨_, stageStep_manch hs hlt (h.rowIdx_lt (by rw [hs]; rfl))⟩
    · exact ⟨_, stageStep_manch_full hs hfull⟩
  | _ => exact ⟨_, (exec_stageInstr s).symm.trans (by rw [hs]; rfl)⟩

end

/-- Settles O54: the step is RESET, a stage step with legal registers, or the host's commands alone. -/
theorem goodStateNeverStops : Obligations.GoodStateNeverStops := by
  intro s h
  cases hr : s.currentInput.rst with
  | true => exact ⟨_, step_of_rst hr⟩
  | false =>
    cases hb : s.busy with
    | true =>
      rw [step_of_busy hb hr]
      exact (inv_popInput h).stageStep_next
    | false =>
      cases hst : s.currentInput.start with
      | true => exact ⟨_, step_of_free_start hb hr hst⟩
      | false => exact ⟨_, step_of_free_hold hb hr hst⟩

/-! ## DECODE run by itself -/

/-- At a stage code after 001 DECODE is the rest of the run (log 17). -/
theorem exec_decode_rest {c : Stage} (hc : rowChosen c = true) (s : State) :
    exec (.decode c) s = runToDone (s.goto c) := by
  cases c with
  | idle => cases hc
  | classify => cases hc
  | done => cases hc
  | _ => rfl

/-- DECODE runs from CLASSIFY or from a stage at which a row has been chosen. -/
theorem runs_cases (c : Stage) : c.runs = true → c = .classify ∨ rowChosen c = true := by
  cases c <;> decide

/-- Settles O40. -/
theorem decodeRunRefinesFunction : Obligations.DecodeRunRefinesFunction :=
  fun _ => runToDone_startClear

/-- Settles O43: either run gives the ports of `Decode(B)`, and `B` is the same. -/
theorem equalBuffersEqualResults : Obligations.EqualBuffersEqualResults := by
  intro s s' hmax hrows
  have hnum : s.numRows = s'.numRows := by simpa using congrArg List.length hrows
  obtain ⟨t, hrun, -, hout, -⟩ := decodeRunRefinesFunction s hmax
  obtain ⟨t', hrun', -, hout', -⟩ := decodeRunRefinesFunction s' (hnum ▸ hmax)
  exact ⟨t, t', hrun, hrun', by rw [hout, hout', hrows]⟩

section
variable {s : State}

theorem endsWithin_manch_any (hs : s.stage = .manch) (hrow : s.rowIdx < Config.maxRows) :
    ∃ R, s.EndsWithin 60 R := by
  rcases Nat.lt_or_ge s.symCnt 56 with hlt | hfull
  · exact ⟨_, (endsWithin_manch (k := 56 - s.symCnt) hs (by omega) hrow).mono (by omega)⟩
  · have hb : s.busy = true := by simp [busy_eq_true, hs]
    exact ⟨_, ((endsWithin_descr (s := s.goto .descr) rfl).of_step hb (stageStep_manch_full hs hfull)).mono (by omega)⟩

theorem endsWithin_locate_any (hs : s.stage = .locate) (hrow : s.rowIdx < Config.maxRows) :
    ∃ R, s.EndsWithin 61 R := by
  have hb : s.busy = true := by simp [busy_eq_true, hs]
  have hstep := stageStep_locate hs hrow
  rw [locateOn_eq] at hstep
  split at hstep
  case isTrue =>
    obtain ⟨R, hR⟩ := endsWithin_manch_any (s := s.located) rfl hrow
    exact ⟨R, hR.of_step hb hstep⟩
  case isFalse => exact ⟨_, ((endsWithin_raiseCause .preambleNotAt0 s).of_step hb hstep).mono (by omega)⟩

/-- From every stage after CLASSIFY the run ends, whatever the registers hold, if the chosen row is in the buffer. -/
theorem endsWithin_of_rowChosen (hs : rowChosen s.stage = true) (hrow : s.rowIdx < Config.maxRows) :
    ∃ R, s.EndsWithin 61 R := by
  cases hst : s.stage with
  | idle => simp [hst, rowChosen] at hs
  | classify => simp [hst, rowChosen] at hs
  | locate => exact endsWithin_locate_any hst hrow
  | manch =>
    obtain ⟨R, hR⟩ := endsWithin_manch_any hst hrow
    exact ⟨R, hR.mono (by omega)⟩
  | descr => exact ⟨_, (endsWithin_descr hst).mono (by omega)⟩
  | fold => exact ⟨_, (endsWithin_fold hst).mono (by omega)⟩
  | slice => exact ⟨_, (endsWithin_slice hst).mono (by omega)⟩
  | done => simp [hst, rowChosen] at hs

end

/-- Settles O41: the whole run from clean registers, or the rest of it from a stage that has its row. -/
theorem decodeEndsInDone : Obligations.DecodeEndsInDone := by
  intro c s hc hrow hmax
  rcases runs_cases c hc with rfl | hchosen
  case inl =>
    obtain ⟨t, hrun, hdone, -, hframe⟩ := decodeRunRefinesFunction s hmax
    exact ⟨t, hrun, hdone, hframe⟩
  case inr =>
    obtain ⟨R, t, hruns, hdone, -⟩ := endsWithin_of_rowChosen (s := s.goto c) hchosen hrow
    have hrun : runToDone (s.goto c) = .next t := hruns _ (by simp [runBound])
    exact ⟨t, (exec_decode_rest hchosen s).trans hrun, hdone, runStages_frame (s := s.goto c) hrun⟩

/-! ## The invocation, step by step -/

/-- The same block with other inputs to come. -/
def State.withInputs (is : List HostInput) (s : State) : State :=
  { s with inputs := is }

section
variable {s t : State} {is : List HostInput}

theorem withRow_withInputs {r : Nat} {f : Bits → State → State}
    (hf : ∀ row u, f row (State.withInputs is u) = (f row u).withInputs is) (h : withRow r f s = .next t) :
    withRow r f (s.withInputs is) = .next (t.withInputs is) := by
  obtain ⟨hr, rfl⟩ := withRow_eq_next h
  rw [withRow_next f hr]
  exact congrArg _ (hf ..)

theorem classifyLength_withInputs (len : Nat) (u : State) :
    State.classifyLength len (u.withInputs is) = (u.classifyLength len).withInputs is := by
  unfold State.classifyLength
  split <;> rfl

theorem locateOn_withInputs (row : Bits) (u : State) :
    State.locateOn row (u.withInputs is) = (u.locateOn row).withInputs is := by
  rw [locateOn_eq, locateOn_eq, apply_ite (State.withInputs is)]
  rfl

theorem takeSymbol_withInputs (y : Symbol) (u : State) :
    State.takeSymbol y (u.withInputs is) = (u.takeSymbol y).withInputs is := by
  cases y <;> simp only [State.takeSymbol, Symbol.dataBit, apply_ite (State.withInputs is)] <;> rfl

theorem msymOn_withInputs (row : Bits) (u : State) :
    State.msymOn row (u.withInputs is) = (u.msymOn row).withInputs is := by
  unfold State.msymOn
  rw [show (u.withInputs is).bitPos = u.bitPos from rfl]
  cases symbolAt row u.bitPos with
  | none => rfl
  | some y => exact takeSymbol_withInputs y u

/-- No stage operation reads the inputs (46_sequencer.md R202). -/
theorem stageStep_withInputs (h : stageStep s = .next t) :
    stageStep (s.withInputs is) = .next (t.withInputs is) := by
  unfold stageStep at h ⊢
  rw [show (s.withInputs is).stage = s.stage from rfl]
  cases hs : s.stage <;> simp only [hs] at h ⊢
  case classify =>
    unfold execClassify at h ⊢
    split at h
    case isTrue hend => cases h; exact if_pos hend
    case isFalse hlt => exact (if_neg hlt).trans (withRow_withInputs (fun row => classifyLength_withInputs row.length) h)
  case locate => exact withRow_withInputs locateOn_withInputs h
  case manch =>
    unfold execManch at h ⊢
    split at h
    case isTrue hfull => cases h; exact if_pos hfull
    case isFalse hlt => exact (if_neg hlt).trans (withRow_withInputs msymOn_withInputs h)
  case fold =>
    cases h
    rw [apply_ite (State.withInputs is)]
    rfl
  all_goals cases h; rfl

end

theorem rst_currentInput {s : State} (h : ∀ i ∈ s.inputs, i.rst = false) : s.currentInput.rst = false := by
  unfold State.currentInput
  split
  case h_1 => rfl
  case h_2 i rest hin => exact h i (by rw [hin]; exact List.mem_cons_self)

theorem run_succ {M : Host.Core} {s u : M.State} (h : M.step s = .next u) (k : Nat) : M.run (k + 1) s = M.run k u := by
  rw [Host.Core.run, h]

theorem core_run_succ {s u : State} (h : step s = .next u) (k : Nat) :
    Host.Core.run core (k + 1) s = Host.Core.run core k u :=
  run_succ (M := core) h k

/-- Steps under inputs without reset do what the run of the stages does, as long as the block is busy. -/
theorem core_run_of_runStages {n : Nat} {s t : State} {is : List HostInput} (hrun : runStages n s = .next t)
    (his : ∀ i ∈ is, i.rst = false) :
    ∃ k, Host.Core.run core k (s.withInputs is) = .next (t.withInputs (is.drop k)) ∧
      ∀ j < k, ∃ u : State, Host.Core.run core j (s.withInputs is) = .next u ∧ u.busy = true := by
  induction n generalizing s is with
  | zero =>
    cases hrun
    exact ⟨0, rfl, fun j hj => absurd hj j.not_lt_zero⟩
  | succ n ih =>
    cases hb : s.busy with
    | false =>
      rw [runStages_not_busy hb] at hrun
      cases hrun
      exact ⟨0, rfl, fun j hj => absurd hj j.not_lt_zero⟩
    | true =>
      simp only [runStages, hb, if_true] at hrun
      obtain ⟨u, hu, hrest⟩ := andThen_eq_next hrun
      have hstep : step (s.withInputs is) = .next (u.withInputs is.tail) :=
        (step_of_busy (s := s.withInputs is) hb (rst_currentInput his)).trans
          (stageStep_withInputs (s := s) (is := is.tail) hu)
      obtain ⟨k, hend, hbusy⟩ := ih hrest (is := is.tail) fun i hi => his i (List.mem_of_mem_tail hi)
      refine ⟨k + 1, ?last, fun j hj => ?before⟩
      case last => rw [core_run_succ hstep, hend, List.drop_tail]
      case before =>
        cases j with
        | zero => exact ⟨_, rfl, hb⟩
        | succ j =>
          rw [core_run_succ hstep]
          exact hbusy j (Nat.lt_of_succ_lt_succ hj)

/-- A run keeps the legal registers. -/
theorem inv_core_run {k : Nat} {s t : State} (h : s.Inv) (hrun : Host.Core.run core k s = .next t) : t.Inv := by
  induction k generalizing s with
  | zero => cases hrun; exact h
  | succ k ih =>
    obtain ⟨u, hu⟩ := goodStateNeverStops s h
    rw [core_run_succ hu] at hrun
    exact ih (stepKeepsLegalRegisters s u h hu) hrun

/-- While an invocation runs the message ports are 0 (45_slicer.md R197). -/
theorem State.Inv.message_zero {s : State} (h : s.Inv) (hb : s.busy = true) : s.message = .zero := by
  have hvalid : s.msgValid ≠ true := mt h.valid.1 (h.status_ne_success (busy_eq_true.1 hb).2)
  exact if_neg hvalid

/-- Settles O42: an accepted START leaves clean registers, from which the run of the stages computes `Decode(B)`; the steps
follow that run, since a busy block reads nothing of what the host drives but reset. -/
theorem invocationRefinesFunction : Obligations.InvocationRefinesFunction := by
  intro s h hb hst hin
  have hstep := step_of_free_start hb (rst_currentInput hin) hst
  generalize hw : s.popInput.hostWritten s.currentInput.write = w at hstep
  have hinv : w.startClear.Inv := stepKeepsLegalRegisters s _ h hstep
  have hinputs : ∀ i ∈ w.startClear.inputs, i.rst = false := fun i hi => by
    rw [State.startClear_inputs, ← hw, State.hostWritten_inputs] at hi
    exact hin i (List.mem_of_mem_tail hi)
  obtain ⟨t, hrun, hdone, hout, hrows, hnum, -, hresets, -⟩ := runToDone_startClear (s := w) hinv.numRows_le
  obtain ⟨k, hend, hbusy⟩ := core_run_of_runStages hrun hinputs
  refine ⟨_, hstep, rfl, k, _, hend, hdone, State.rowSet_congr hrows hresets hnum, hout, fun j hj => ?_⟩
  obtain ⟨u, hu, hub⟩ := hbusy j hj
  exact ⟨u, hu, hub, (inv_core_run hinv hu).message_zero hub⟩

end Sys2Proof.Machine

/-! PROOFS. The statements of 60_exceptions.md: each cause run by itself is the failure action with its own codes (R231 to
R236), and the failure reported is the one the earliest stage detects (R239). -/

namespace Sys2Proof.Machine

/-! ## The causes run by themselves -/

/-- The instruction that is each cause run by itself (60_exceptions.md R231 to R234). -/
def Cause.instr : Cause → Instr
  | .noRowInBand => .noRowInBand
  | .preambleNotAt0 => .preambleNotAt0
  | .shortManchester => .shortManchester
  | .checksumNonzero => .checksumNonzero

/-- A cause run by itself raises itself, in any stage (60_exceptions.md R236; log 13). -/
theorem exec_causeInstr (c : Cause) (s : State) : exec c.instr s = .next (s.raiseCause c) := by
  cases c <;> rfl

/-- Settles O35: the codes of each cause are those of its failure type and of the stage that raises it. -/
theorem causesTakeFailureAction : Obligations.CausesTakeFailureAction := fun s =>
  ⟨exec_causeInstr .noRowInBand s, exec_causeInstr .preambleNotAt0 s, exec_causeInstr .shortManchester s,
    exec_causeInstr .checksumNonzero s, rfl, rfl⟩

/-! ## The earliest failure -/

theorem decodeRows_of_classify_none {rows : List Bits} (h : classify rows = none) :
    decodeRows rows = .sanityFailure .noRowInBand := by
  simp only [decodeRows, h]

/-- With a row chosen the rest of the decode is that of its bits (46_sequencer.md R200). -/
theorem decodeRows_of_classify_some {rows : List Bits} {retx : Bool} {r : Nat} {row : Bits}
    (h : classify rows = some (retx, r)) (hrow : rows[r]? = some row) :
    decodeRows rows = decodeChosen retx row := by
  simp only [decodeRows, h, hrow]

section
variable {retx : Bool} {row d : Bits} {e : Nat}

theorem decodeChosen_of_no_pattern (hpat : row.take (preambleBitLength retx) ≠ patternBits retx) :
    decodeChosen retx row = .sanityFailure .preambleNotAt0 :=
  if_neg hpat

/-- Behind the pattern the result is decided by the number of decoded symbols (46_sequencer.md R200). -/
theorem decodeChosen_of_pattern (hpat : row.take (preambleBitLength retx) = patternBits retx)
    (hd : manchesterDecode row (dataStartBit retx) 56 = (d, e)) :
    decodeChosen retx row =
      if d.length = 56 then finishDecode retx (packBits d) else .integrityFailure .shortManchester := by
  rw [decodeChosen, if_pos hpat, nSym_eq, hd]

end

/-- Settles O48: stage by stage, the first test that fails is the one that gives the result. -/
theorem earliestFailureReported : Obligations.EarliestFailureReported := by
  intro rows
  refine ⟨decodeRows_of_classify_none, fun retx r row hchosen hrow => ?_⟩
  rw [decodeRows_of_classify_some hchosen hrow]
  refine ⟨decodeChosen_of_no_pattern, fun hpat d e hd => ?_⟩
  rw [decodeChosen_of_pattern hpat hd]
  refine ⟨fun hshort => ?short, fun hfull hfold => ?checksum, fun hfull hfold => ?message⟩
  case short => exact if_neg hshort.ne
  case checksum => rw [if_pos hfull, finishDecode, if_neg hfold]
  case message => rw [if_pos hfull, finishDecode, if_pos hfold]

end Sys2Proof.Machine

/-! PROOFS. The statements of 70_reset_and_hazards.md: what RESET wipes (R260), and that no result shows while an invocation
runs (R269). -/

namespace Sys2Proof.Machine

/-! ## The result of a running invocation -/

/-- While an invocation runs the result is (NONE, 0) (60_exceptions.md R235). -/
theorem State.Inv.result_running {s : State} (h : s.Inv) (hb : s.busy = true) : s.status = .none ∧ s.failStage = 0 :=
  (resultLegal_iff_of_ne_done (busy_eq_true.1 hb).2).1 h.result

/-- While an invocation runs no message is valid (10_state.md R31). -/
theorem State.Inv.msgValid_running {s : State} (h : s.Inv) (hb : s.busy = true) : s.msgValid = false :=
  Bool.eq_false_of_not_eq_true (mt h.valid.1 (h.status_ne_success (busy_eq_true.1 hb).2))

/-- Settles O56: the step leaves legal registers, and those of a running stage hold no result. -/
theorem noResultWhileBusy : Obligations.NoResultWhileBusy := by
  intro s t h hstep hb
  have ht : t.Inv := stepKeepsLegalRegisters s t h hstep
  obtain ⟨hstatus, hfail⟩ := ht.result_running hb
  have hcode : t.outputs.status = 0 := congrArg Status.code hstatus
  exact ⟨hcode, hfail, ht.msgValid_running hb, ht.message_zero hb⟩

/-! ## RESET -/

/-- RESET acts whatever the state and whatever `start` is (70_reset_and_hazards.md R260). -/
theorem exec_reset (x : Bool) (s : State) : exec (.reset x) s = .next s.resetAll := rfl

/-- After RESET every row reads as a free value of its own generation (10_state.md R41; log 4). -/
theorem State.rowAt_resetAll (s : State) (r : Nat) :
    s.resetAll.rowAt r = (Config.unspecifiedRow (s.resets + 1) r).take Config.maxRowBits :=
  rowAt_of_rows_nil s.resetAll_rows r

/-- Settles O2: with `rst` driven the step is `State.resetAll`, and the flags, the message and the rows are views of it. -/
theorem resetWipesEverything : Obligations.ResetWipesEverything := by
  refine ⟨exec_reset, fun s hr => ⟨s.popInput.resetAll, step_of_rst hr, rfl, ?busy, ?done, ?message, ?rows⟩⟩
  case busy => rw [State.busy, State.resetAll_stage]; rfl
  case done => rw [State.done, State.resetAll_stage]; rfl
  case message => rw [State.message, State.resetAll_msgValid, if_neg Bool.false_ne_true]
  case rows => exact s.popInput.rowAt_resetAll

end Sys2Proof.Machine
